-- ==== Sys2Proof/Word.lean ====
section
/-! DEFINITION. Word.lean: the word types of the CHIP-8 core and the names of its registers.
Every value of the machine is unsigned (spec/00_scope.md R9); widths are those of R5. -/

namespace Sys2Proof

/-- A byte: a general register, a timer, one byte of memory (spec/00_scope.md R5, REG_W). -/
abbrev Byte := BitVec 8

/-- A 16-bit instruction word (R5, INSTR_W; spec/30_encoding.md R90). -/
abbrev Word := BitVec 16

/-- A 12-bit program address: the program counter and the field nnn (R5, PC_W; decision D2). -/
abbrev Addr := BitVec 12

/-- A register number 0..15: the field x or y of a word, so that every value names a register
(spec/10_state.md R20). -/
abbrev Reg := Fin 16

/-- The number of the flags register VF = V[15] (spec/10_state.md R21). -/
abbrev vf : Reg := 15

end Sys2Proof
end

