-- ==== Sys2Proof/WellFormed.lean ====
section
/-! DEFINITION. WellFormed.lean: the opcode map as data (spec/30_encoding.md R95, spec/opcode_table.json)
and the check that a 16-bit word is an instruction at all (R92, R96). A term of `Instr` needs no check of
its own: its operand types hold exactly the values its fields can spell (spec/10_state.md R20,
spec/30_encoding.md R93), so every term is well-formed. The terms that can be ill-formed are the words. -/

namespace Sys2Proof

/-- One row of the opcode map: its mnemonic as spec/opcode_table.json spells it, its mask and its match. -/
structure OpRow where
  mnemonic : String
  mask : Word
  pattern : Word
  deriving DecidableEq, Repr

/-- A word matches a row when `w & mask = match` (spec/30_encoding.md R92). -/
def OpRow.matches (r : OpRow) (w : Word) : Bool := w &&& r.mask == r.pattern

/-- The row of the opcode map (spec/30_encoding.md R95) an instruction belongs to. -/
def Instr.opRow : Instr → OpRow
  | .cls => ⟨"CLS", 0xFFFF, 0x00E0⟩
  | .ret => ⟨"RET", 0xFFFF, 0x00EE⟩
  | .jp _ => ⟨"JP_nnn", 0xF000, 0x1000⟩
  | .call _ => ⟨"CALL_nnn", 0xF000, 0x2000⟩
  | .seImm _ _ => ⟨"SE_Vx_kk", 0xF000, 0x3000⟩
  | .sneImm _ _ => ⟨"SNE_Vx_kk", 0xF000, 0x4000⟩
  | .seReg _ _ => ⟨"SE_Vx_Vy", 0xF00F, 0x5000⟩
  | .ldImm _ _ => ⟨"LD_Vx_kk", 0xF000, 0x6000⟩
  | .addImm _ _ => ⟨"ADD_Vx_kk", 0xF000, 0x7000⟩
  | .ldReg _ _ => ⟨"LD_Vx_Vy", 0xF00F, 0x8000⟩
  | .orReg _ _ => ⟨"OR_Vx_Vy", 0xF00F, 0x8001⟩
  | .andReg _ _ => ⟨"AND_Vx_Vy", 0xF00F, 0x8002⟩
  | .xorReg _ _ => ⟨"XOR_Vx_Vy", 0xF00F, 0x8003⟩
  | .addReg _ _ => ⟨"ADD_Vx_Vy", 0xF00F, 0x8004⟩
  | .subReg _ _ => ⟨"SUB_Vx_Vy", 0xF00F, 0x8005⟩
  | .shr _ _ => ⟨"SHR_Vx_Vy", 0xF00F, 0x8006⟩
  | .subnReg _ _ => ⟨"SUBN_Vx_Vy", 0xF00F, 0x8007⟩
  | .shl _ _ => ⟨"SHL_Vx_Vy", 0xF00F, 0x800E⟩
  | .sneReg _ _ => ⟨"SNE_Vx_Vy", 0xF00F, 0x9000⟩
  | .ldI _ => ⟨"LD_I_nnn", 0xF000, 0xA000⟩
  | .jpV0 _ => ⟨"JP_V0_nnn", 0xF000, 0xB000⟩
  | .rnd _ _ => ⟨"RND_Vx_kk", 0xF000, 0xC000⟩
  | .drw _ _ _ => ⟨"DRW_Vx_Vy_n", 0xF000, 0xD000⟩
  | .skp _ => ⟨"SKP_Vx", 0xF0FF, 0xE09E⟩
  | .sknp _ => ⟨"SKNP_Vx", 0xF0FF, 0xE0A1⟩
  | .ldVxDt _ => ⟨"LD_Vx_DT", 0xF0FF, 0xF007⟩
  | .ldVxK _ => ⟨"LD_Vx_K", 0xF0FF, 0xF00A⟩
  | .ldDtVx _ => ⟨"LD_DT_Vx", 0xF0FF, 0xF015⟩
  | .ldStVx _ => ⟨"LD_ST_Vx", 0xF0FF, 0xF018⟩
  | .addI _ => ⟨"ADD_I_Vx", 0xF0FF, 0xF01E⟩
  | .ldF _ => ⟨"LD_F_Vx", 0xF0FF, 0xF029⟩
  | .ldB _ => ⟨"LD_B_Vx", 0xF0FF, 0xF033⟩
  | .storeRegs _ => ⟨"LD__I__Vx", 0xF0FF, 0xF055⟩
  | .loadRegs _ => ⟨"LD_Vx__I", 0xF0FF, 0xF065⟩

/-- The 34 rows of the opcode map, in the order of R95. -/
def opTable : List OpRow :=
  (([.cls, .ret, .jp 0, .call 0, .seImm 0 0, .sneImm 0 0, .seReg 0 0, .ldImm 0 0, .addImm 0 0] ++
    [.ldReg 0 0, .orReg 0 0, .andReg 0 0, .xorReg 0 0, .addReg 0 0, .subReg 0 0, .shr 0 0, .subnReg 0 0, .shl 0 0] ++
    [.sneReg 0 0, .ldI 0, .jpV0 0, .rnd 0 0, .drw 0 0 0, .skp 0, .sknp 0, .ldVxDt 0, .ldVxK 0] ++
    [.ldDtVx 0, .ldStVx 0, .addI 0, .ldF 0, .ldB 0, .storeRegs 0, .loadRegs 0]) : List Instr).map Instr.opRow

/-- The check on a word: it matches a row of the opcode map. A word that fails it is one of the 21582
invalid words of spec/30_encoding.md R96. -/
def wordWellFormed (w : Word) : Bool := opTable.any (·.matches w)

end Sys2Proof
end

