-- ==== Sys2Proof/Decode.lean ====
section
/-! DEFINITION. Decode.lean: the decoder, total on any bytes and rejecting by name, then the encoder,
both from the patterns of spec/30_encoding.md R91, R94, R95. Decoding depends on no state and no quirk
(R94, R101). -/

namespace Sys2Proof

/-! ## Fields of a word (R91) -/

/-- The major opcode `w[15:12]`. -/
def fieldOp (w : Word) : BitVec 4 := w.extractLsb' 12 4

/-- The register number `x = w[11:8]`. -/
def fieldX (w : Word) : Reg := (w.extractLsb' 8 4).toFin

/-- The register number `y = w[7:4]`. -/
def fieldY (w : Word) : Reg := (w.extractLsb' 4 4).toFin

/-- The low nibble `n = w[3:0]`. -/
def fieldN (w : Word) : BitVec 4 := w.extractLsb' 0 4

/-- The low byte `kk = w[7:0]`. -/
def fieldKk (w : Word) : Byte := w.extractLsb' 0 8

/-- The low 12 bits `nnn = w[11:0]`. -/
def fieldNnn (w : Word) : Addr := w.extractLsb' 0 12

/-! ## Byte order (spec/20_memory.md R62): the byte at the lower address is the high byte -/

/-- The word whose high byte is `b0` and whose low byte is `b1`. -/
def wordOfBytes (b0 b1 : Byte) : Word := b0 ++ b1

/-- The two bytes of a word in memory order, high byte first. -/
def bytesOfWord (w : Word) : List Byte := [w.extractLsb' 8 8, w.extractLsb' 0 8]

/-! ## The decoder -/

/-- Why a byte sequence is no instruction. -/
inductive DecodeError where
  /-- The word matches no row of the opcode map (spec/30_encoding.md R96). A Step that fetches it raises
  InvalidOpcode. -/
  | invalidOpcode (w : Word)
  /-- Fewer than two bytes were given; a Step never asks this, since its fetch reads two bytes or raises
  (notes/assumptions/15.md). -/
  | truncated
  deriving DecidableEq, Repr

/-- Group 8: the low nibble selects the operation (R94). -/
def decodeGroup8 (w : Word) : Except DecodeError Instr :=
  match (fieldN w).toNat with
  | 0x0 => .ok (.ldReg (fieldX w) (fieldY w))
  | 0x1 => .ok (.orReg (fieldX w) (fieldY w))
  | 0x2 => .ok (.andReg (fieldX w) (fieldY w))
  | 0x3 => .ok (.xorReg (fieldX w) (fieldY w))
  | 0x4 => .ok (.addReg (fieldX w) (fieldY w))
  | 0x5 => .ok (.subReg (fieldX w) (fieldY w))
  | 0x6 => .ok (.shr (fieldX w) (fieldY w))
  | 0x7 => .ok (.subnReg (fieldX w) (fieldY w))
  | 0xE => .ok (.shl (fieldX w) (fieldY w))
  | _ => .error (.invalidOpcode w)

/-- Group E: the low byte selects the operation (R94). -/
def decodeGroupE (w : Word) : Except DecodeError Instr :=
  if fieldKk w = 0x9E then .ok (.skp (fieldX w))
  else if fieldKk w = 0xA1 then .ok (.sknp (fieldX w))
  else .error (.invalidOpcode w)

/-- Group F: the low byte selects the operation (R94). -/
def decodeGroupF (w : Word) : Except DecodeError Instr :=
  if fieldKk w = 0x07 then .ok (.ldVxDt (fieldX w))
  else if fieldKk w = 0x0A then .ok (.ldVxK (fieldX w))
  else if fieldKk w = 0x15 then .ok (.ldDtVx (fieldX w))
  else if fieldKk w = 0x18 then .ok (.ldStVx (fieldX w))
  else if fieldKk w = 0x1E then .ok (.addI (fieldX w))
  else if fieldKk w = 0x29 then .ok (.ldF (fieldX w))
  else if fieldKk w = 0x33 then .ok (.ldB (fieldX w))
  else if fieldKk w = 0x55 then .ok (.storeRegs (fieldX w))
  else if fieldKk w = 0x65 then .ok (.loadRegs (fieldX w))
  else .error (.invalidOpcode w)

/-- Decode a word (spec/30_encoding.md R94): the high nibble and, for the ambiguous groups, the low nibble
or the low byte. -/
def decodeWord (w : Word) : Except DecodeError Instr :=
  match (fieldOp w).toNat with
  | 0x0 =>
    if w = 0x00E0 then .ok .cls
    else if w = 0x00EE then .ok .ret
    else .error (.invalidOpcode w)
  | 0x1 => .ok (.jp (fieldNnn w))
  | 0x2 => .ok (.call (fieldNnn w))
  | 0x3 => .ok (.seImm (fieldX w) (fieldKk w))
  | 0x4 => .ok (.sneImm (fieldX w) (fieldKk w))
  | 0x5 => if fieldN w = 0 then .ok (.seReg (fieldX w) (fieldY w)) else .error (.invalidOpcode w)
  | 0x6 => .ok (.ldImm (fieldX w) (fieldKk w))
  | 0x7 => .ok (.addImm (fieldX w) (fieldKk w))
  | 0x8 => decodeGroup8 w
  | 0x9 => if fieldN w = 0 then .ok (.sneReg (fieldX w) (fieldY w)) else .error (.invalidOpcode w)
  | 0xA => .ok (.ldI (fieldNnn w))
  | 0xB => .ok (.jpV0 (fieldNnn w))
  | 0xC => .ok (.rnd (fieldX w) (fieldKk w))
  | 0xD => .ok (.drw (fieldX w) (fieldY w) (fieldN w))
  | 0xE => decodeGroupE w
  | 0xF => decodeGroupF w
  | _ => .error (.invalidOpcode w)

/-- Decode the instruction at the front of a byte sequence, and what follows it. -/
def decode : List Byte → Except DecodeError (Instr × List Byte)
  | b0 :: b1 :: rest =>
    match decodeWord (wordOfBytes b0 b1) with
    | .ok i => .ok (i, rest)
    | .error e => .error e
  | _ => .error .truncated

/-- The instruction this decoder reads from a word numbered as spec/opcode_table.json numbers it. -/
def decodeTableWord (nbits w : Nat) : Option Instr :=
  match decode (bytesOfWord (BitVec.ofNat 16 (w % 2 ^ nbits))) with
  | .ok (i, _) => some i
  | .error _ => none

/-! ## The encoder -/

/-- A register number as the 4-bit field that spells it. -/
def regField (r : Reg) : BitVec 4 := BitVec.ofFin r

/-- A word of four nibbles, the high nibble first: the pattern notation of spec/00_scope.md R7. -/
def nibbles (a b c d : BitVec 4) : Word := a ++ b ++ c ++ d

/-- A word of a major opcode, a register field and a byte: the formats FI and FX
(spec/30_encoding.md R92). -/
def opRegByte (op : BitVec 4) (x : Reg) (kk : Byte) : Word := op ++ regField x ++ kk

/-- A word of a major opcode and an address: the format FA (spec/30_encoding.md R92). -/
def opAddr (op : BitVec 4) (nnn : Addr) : Word := op ++ nnn

/-- The word of an instruction, from the patterns of spec/30_encoding.md R95. -/
def encodeWord : Instr → Word
  | .cls => 0x00E0
  | .ret => 0x00EE
  | .jp nnn => opAddr 0x1 nnn
  | .call nnn => opAddr 0x2 nnn
  | .seImm x kk => opRegByte 0x3 x kk
  | .sneImm x kk => opRegByte 0x4 x kk
  | .seReg x y => nibbles 0x5 (regField x) (regField y) 0x0
  | .ldImm x kk => opRegByte 0x6 x kk
  | .addImm x kk => opRegByte 0x7 x kk
  | .ldReg x y => nibbles 0x8 (regField x) (regField y) 0x0
  | .orReg x y => nibbles 0x8 (regField x) (regField y) 0x1
  | .andReg x y => nibbles 0x8 (regField x) (regField y) 0x2
  | .xorReg x y => nibbles 0x8 (regField x) (regField y) 0x3
  | .addReg x y => nibbles 0x8 (regField x) (regField y) 0x4
  | .subReg x y => nibbles 0x8 (regField x) (regField y) 0x5
  | .shr x y => nibbles 0x8 (regField x) (regField y) 0x6
  | .subnReg x y => nibbles 0x8 (regField x) (regField y) 0x7
  | .shl x y => nibbles 0x8 (regField x) (regField y) 0xE
  | .sneReg x y => nibbles 0x9 (regField x) (regField y) 0x0
  | .ldI nnn => opAddr 0xA nnn
  | .jpV0 nnn => opAddr 0xB nnn
  | .rnd x kk => opRegByte 0xC x kk
  | .drw x y n => nibbles 0xD (regField x) (regField y) n
  | .skp x => opRegByte 0xE x 0x9E
  | .sknp x => opRegByte 0xE x 0xA1
  | .ldVxDt x => opRegByte 0xF x 0x07
  | .ldVxK x => opRegByte 0xF x 0x0A
  | .ldDtVx x => opRegByte 0xF x 0x15
  | .ldStVx x => opRegByte 0xF x 0x18
  | .addI x => opRegByte 0xF x 0x1E
  | .ldF x => opRegByte 0xF x 0x29
  | .ldB x => opRegByte 0xF x 0x33
  | .storeRegs x => opRegByte 0xF x 0x55
  | .loadRegs x => opRegByte 0xF x 0x65

/-- The bytes of an instruction, in memory order (spec/20_memory.md R62). -/
def encode (i : Instr) : List Byte := bytesOfWord (encodeWord i)

end Sys2Proof
end

