-- ==== Sys2Proof/Config.lean ====
section
/-! DEFINITION. Config.lean: what is fixed for the life of one core (spec/00_scope.md R6) and the free
value of the random source (spec/40_execution_cycle.md R130). The six quirks, FONT_BASE and FONT are
plain data, held in State and changed by no event, so a statement about every state holds for all 64
quirk settings, every FONT_BASE and every FONT (notes/assumptions/1.md). -/

namespace Sys2Proof

/-- Q, the six quirks (spec/10_state.md R31, spec/00_scope.md R6). -/
structure Quirks where
  /-- OR, AND, XOR force VF to 0 (spec/42_register_alu.md R173 to R175). -/
  vfReset : Bool
  /-- Fx55 and Fx65 leave I advanced by x + 1 (spec/43_index_and_memory.md R204, R205). -/
  memoryIncrement : Bool
  /-- At most one draw in a tick interval (spec/45_display.md R243). -/
  displayWait : Bool
  /-- Sprite pixels past the right or bottom edge are dropped, not wrapped (spec/45_display.md R242). -/
  clipping : Bool
  /-- 8xy6 and 8xyE shift Vx in place and ignore Vy (spec/42_register_alu.md R178, R180). -/
  shifting : Bool
  /-- Bnnn adds Vx, x = nnn[11:8], not V0 (spec/41_control_flow.md R157). -/
  jumping : Bool
  deriving DecidableEq, Repr

/-- One glyph of the font: five sprite rows, row 0 first (spec/20_memory.md R73). -/
abbrev Glyph := Vector Byte 5

/-- The constant configuration of one core: Q, FONT_BASE and FONT (spec/00_scope.md R6).
FONT_BASE is any value 0..0x1B0, which its type says. -/
structure Config where
  quirks : Quirks
  fontBase : Fin 0x1B1
  font : Vector Glyph 16
  deriving DecidableEq, Repr

/-- Free value: the byte the injected random source answers at its k-th draw, where the state supplies
no byte of its own. It has no body, so nothing can be proved of it
(spec/40_execution_cycle.md R130; spec/93_implementation_defined.md U3; notes/assumptions/3.md). -/
opaque Config.freeRnd : Nat → Byte

end Sys2Proof
end

