-- ==== Sys2Proof/Machine/Font.lean ====
section
/-! DEFINITION. Machine/Font.lean: the built-in font (spec/20_memory.md R73) and the configuration that
`State.reset` takes. -/

namespace Sys2Proof.Machine

/-- The glyphs 0 to 7 of spec/20_memory.md R73. -/
def glyphs0To7 : Vector Glyph 8 :=
  #v[#v[0xF0, 0x90, 0x90, 0x90, 0xF0],
     #v[0x20, 0x60, 0x20, 0x20, 0x70],
     #v[0xF0, 0x10, 0xF0, 0x80, 0xF0],
     #v[0xF0, 0x10, 0xF0, 0x10, 0xF0],
     #v[0x90, 0x90, 0xF0, 0x10, 0x10],
     #v[0xF0, 0x80, 0xF0, 0x10, 0xF0],
     #v[0xF0, 0x80, 0xF0, 0x90, 0xF0],
     #v[0xF0, 0x10, 0x20, 0x40, 0x40]]

/-- The glyphs 8 to F of spec/20_memory.md R73. -/
def glyphs8ToF : Vector Glyph 8 :=
  #v[#v[0xF0, 0x90, 0xF0, 0x90, 0xF0],
     #v[0xF0, 0x90, 0xF0, 0x10, 0xF0],
     #v[0xF0, 0x90, 0xF0, 0x90, 0x90],
     #v[0xE0, 0x90, 0xE0, 0x90, 0xE0],
     #v[0xF0, 0x80, 0x80, 0x80, 0xF0],
     #v[0xE0, 0x90, 0x90, 0x90, 0xE0],
     #v[0xF0, 0x80, 0xF0, 0x80, 0xF0],
     #v[0xF0, 0x80, 0xF0, 0x80, 0x80]]

/-- FONT, the table of spec/20_memory.md R73. PRESUMED: the spec takes the bytes from general knowledge
(decision D13; notes/assumptions/8.md); unsafe for a statement about the pixels of a glyph. -/
def standardFont : Vector Glyph 16 := glyphs0To7 ++ glyphs8ToF

/-- The configuration of `State.reset`: all six quirks off, FONT_BASE = 0x050, the font of R73.
DESIGN CHOICE (notes/assumptions/1.md): the spec gives no default quirk setting (N2); these are the
values spec/95_test_vectors.md assumes. Unsafe only for a statement about `State.reset` itself. -/
def standardConfig : Config where
  quirks :=
    { vfReset := false, memoryIncrement := false, displayWait := false, clipping := false,
      shifting := false, jumping := false }
  fontBase := 0x050
  font := standardFont

end Sys2Proof.Machine
end

