-- ==== Sys2Proof/Machine/State.lean ====
section
/-! DEFINITION. Machine/State.lean: the state of the core as plain data (spec/10_state.md), the reasons a
step could stop, and the state after reset. -/

namespace Sys2Proof.Machine

/-! ## Why a step could stop -/

/-- The machine has no fault: each of the spec's errors is a state it goes on from, with the error latched
(spec/60_exceptions.md R266; spec/93_implementation_defined.md Part 2, "every event in every state has
exactly one successor"). No constructor, so no meaning can raise one (notes/assumptions/6.md). -/
inductive Fault where
  deriving DecidableEq, Repr

/-- The refusals of the model. -/
inductive Refusal where
  /-- An instruction of the opcode table that has no meaning yet: raised by exec's arm and by nothing else.
  No arm raises it now. Safe: the model stops where the hardware goes on. -/
  | notModelled (mnemonic : String)
  deriving DecidableEq, Repr

/-! ## The parts of the state -/

/-- The five error kinds (spec/60_exceptions.md R260). -/
inductive ErrorKind where
  /-- Code 1: the fetched word matches no row of the opcode map (R261). -/
  | invalidOpcode
  /-- Code 2: CALL with a full stack (R262). -/
  | stackOverflow
  /-- Code 3: RET with an empty stack (R263). -/
  | stackUnderflow
  /-- Code 4: an address above 0xFFF for an access or a jump (R264). -/
  | memoryOutOfBounds
  /-- Code 5: a ROM longer than 3584 bytes; a result of LoadRom, never latched in `err` (R265). -/
  | romTooLarge
  deriving DecidableEq, Repr

/-- The outcome of a Step (spec/10_state.md R35). -/
inductive Status where
  /-- OK: an instruction completed. -/
  | ok
  /-- AWAIT_KEY: Fx0A holds (spec/40_execution_cycle.md R126). -/
  | awaitKey
  /-- AWAIT_BLANK: Dxyn holds under the display_wait quirk (R126). -/
  | awaitBlank
  /-- ERROR: the Step raised, or the core was halted; `err` says which error. -/
  | error
  deriving DecidableEq, Repr

/-- The draw state (spec/10_state.md R32, spec/45_display.md R243). -/
inductive DrawState where
  /-- IDLE: ready to draw. -/
  | idle
  /-- WAIT_BLANK: a draw was performed in this tick interval. -/
  | waitBlank
  deriving DecidableEq, Repr

/-- The five events the host delivers (spec/40_execution_cycle.md R120). -/
inductive HostEvent where
  /-- Reset (spec/70_reset_and_hazards.md R300). -/
  | reset
  /-- LoadRom(bytes) (spec/20_memory.md R74). -/
  | loadRom (bytes : List Byte)
  /-- Step: one instruction cycle (spec/40_execution_cycle.md R121). -/
  | step
  /-- Tick: one 60 Hz tick (R127). -/
  | tick
  /-- KeypadWrite(s): a new keypad snapshot (R128). -/
  | keypadWrite (s : BitVec 16)
  deriving DecidableEq, Repr

/-- Memory: the bytes that differ from the reset contents, addresses strictly rising
(spec/20_memory.md R60; the form is `Memory.wf`; notes/assumptions/11.md). -/
abbrev Memory := List Host.Cell

/-- The framebuffer: 32 rows of 64 one-bit pixels, row 0 at the top; in a row bit x is column x, column 0
at the left (spec/10_state.md R29, spec/45_display.md R240). -/
abbrev Screen := Vector (BitVec 64) 32

/-- A pixel position `(column, row)` of the grid. -/
abbrev Position := Fin 64 × Fin 32

/-- The whole state (spec/10_state.md, opening tuple), the constant configuration with it, the outputs of
the last Step and the last LoadRom, and the model's own fields for the free inputs of
spec/40_execution_cycle.md R132. -/
structure State where
  /-- Q, FONT_BASE, FONT: changed by no event (R31, D28). -/
  cfg : Config
  /-- V[0..15] (R20); V[15] is VF (R21). -/
  v : Vector Byte 16
  /-- I, the index register (R22). -/
  i : BitVec 16
  /-- pc, the program counter (R23). -/
  pc : Addr
  /-- stack[0..15] (R24). -/
  stack : Vector (BitVec 16) 16
  /-- sp, the number of stack entries in use, 0..16 (R25). -/
  sp : Fin 17
  /-- DT, the delay timer (R26). -/
  dt : Byte
  /-- ST, the sound timer (R27). -/
  st : Byte
  /-- mem[0..4095] (R28). -/
  mem : Memory
  /-- fb, the framebuffer (R29). -/
  fb : Screen
  /-- keys: bit k is key k, 1 = pressed (R30). -/
  keys : BitVec 16
  /-- dw, the draw state (R32). -/
  dw : DrawState
  /-- kw: an Fx0A at pc has begun waiting (R33). -/
  kw : Bool
  /-- key_prev: the snapshot the waiting Fx0A last saw (R33). -/
  keyPrev : BitVec 16
  /-- err, the error latch; `none` is code 0 (R34). -/
  err : Option ErrorKind
  /-- err_info, the recorded value (R34). -/
  errInfo : BitVec 17
  /-- Output: the outcome of the last Step (R35; notes/assumptions/4.md). -/
  status : Status
  /-- Output: the result of the last LoadRom, `none` for Ok (spec/20_memory.md R74;
  notes/assumptions/5.md). -/
  loadError : Option ErrorKind
  /-- Model's field: the events the host has scheduled, the next one first; after them the host sends
  Steps (spec/40_execution_cycle.md R131, R132; notes/assumptions/2.md). -/
  inputs : List HostEvent
  /-- Model's field: the bytes the injected random source answers next (R130; notes/assumptions/3.md). -/
  rndSupply : List Byte
  /-- Model's field: the number of bytes drawn so far (R130; notes/assumptions/3.md). -/
  rndCount : Nat
  deriving DecidableEq, Repr

/-! ## Reset -/

/-- The state after Reset of a core with configuration `c` (spec/10_state.md R40,
spec/70_reset_and_hazards.md R300): pc at 0x200, everything else zero, empty, idle, all off; memory lists
nothing, so it reads as its reset contents. The zeros are the spec's decision D16
(notes/assumptions/7.md). `status`, `loadError` and the model's fields: DESIGN CHOICE
(notes/assumptions/2.md to 5.md). -/
def State.resetWith (c : Config) : State where
  cfg := c
  v := Vector.replicate 16 0
  i := 0
  pc := 0x200
  stack := Vector.replicate 16 0
  sp := 0
  dt := 0
  st := 0
  mem := []
  fb := Vector.replicate 32 0
  keys := 0
  dw := .idle
  kw := false
  keyPrev := 0
  err := none
  errInfo := 0
  status := .ok
  loadError := none
  inputs := []
  rndSupply := []
  rndCount := 0

/-- The machine right after reset, with the configuration of `standardConfig`. -/
def State.reset : State := State.resetWith standardConfig

end Sys2Proof.Machine
end

