-- ==== Sys2Proof/Machine/Ops.lean ====
section
/-! DEFINITION. Machine/Ops.lean: the shared operations of the core: memory and its bounds check, the
registers, the address stack, how a Step ends (completes, holds, raises), the random source and the
framebuffer. The meanings of the instructions are written over these. -/

namespace Sys2Proof.Machine

/-- What a meaning answers. -/
abbrev Result := Host.Outcome State Fault Refusal

/-! ## Memory (spec/20_memory.md) -/

/-- What an address reads as when memory lists nothing there: FONT at FONT_BASE and zero elsewhere, the
reset contents of spec/10_state.md R40 (spec/20_memory.md R61, R73). -/
def resetByte (c : Config) (a : Nat) : Byte :=
  if h : c.fontBase.val ≤ a ∧ a < c.fontBase.val + 80 then
    (c.font[(a - c.fontBase.val) / 5]'(by omega))[(a - c.fontBase.val) % 5]'(by omega)
  else 0

/-- The byte memory lists at an address, if it lists one. -/
def Memory.lookup (a : Nat) : Memory → Option Byte
  | [] => none
  | (k, b) :: rest => if a = k then some b else Memory.lookup a rest

/-- The byte at an address. -/
def Memory.read (c : Config) (m : Memory) (a : Nat) : Byte :=
  (Memory.lookup a m).getD (resetByte c a)

/-- Write one byte, keeping the canonical form: a byte equal to the reset contents is not listed. -/
def Memory.write (c : Config) (a : Nat) (b : Byte) : Memory → Memory
  | [] => if b = resetByte c a then [] else [(a, b)]
  | (k, e) :: rest =>
    if a < k then (if b = resetByte c a then (k, e) :: rest else (a, b) :: (k, e) :: rest)
    else if a = k then (if b = resetByte c a then rest else (a, b) :: rest)
    else (k, e) :: Memory.write c a b rest

/-- Write bytes at rising addresses from `a` (the last written first; the addresses are distinct, so the
order is not visible). -/
def Memory.writeBytes (c : Config) (a : Nat) : List Byte → Memory → Memory
  | [], m => m
  | b :: bs, m => Memory.write c a b (Memory.writeBytes c (a + 1) bs m)

/-- Every listed address is at least `lo`, the addresses rise strictly and lie in 0..0xFFF, and no listed
byte equals the reset contents. -/
def Memory.wfFrom (c : Config) (lo : Nat) : Memory → Bool
  | [] => true
  | (k, b) :: rest =>
    decide (lo ≤ k) && decide (k < 4096) && decide (b ≠ resetByte c k) && Memory.wfFrom c (k + 1) rest

/-- The canonical form of memory. -/
def Memory.wf (c : Config) (m : Memory) : Bool := Memory.wfFrom c 0 m

/-- The byte the core holds at an address (spec/10_state.md R28). -/
def State.byteAt (s : State) (a : Nat) : Byte := Memory.read s.cfg s.mem a

/-- The state with bytes stored at rising addresses from `a`, no bound checked. -/
def State.storeBytes (s : State) (a : Nat) (bytes : List Byte) : State :=
  { s with mem := Memory.writeBytes s.cfg a bytes s.mem }

/-- An access of `n` bytes from `addr` reaches past 0xFFF; an access of no bytes never does
(spec/20_memory.md R65, R66). Addresses are unbounded naturals. -/
def outOfBounds (addr n : Nat) : Bool := decide (0 < n ∧ addr + n - 1 > 0xFFF)

/-- `MemRead(addr, n)` of spec/20_memory.md R66: the bytes, lowest address first, or the lowest address of
the access that is out of range. -/
def State.memRead (s : State) (addr n : Nat) : Except Nat (List Byte) :=
  if outOfBounds addr n then .error (max addr 0x1000)
  else .ok ((List.range n).map fun k => s.byteAt (addr + k))

/-- `MemWrite(addr, n, bytes)` of spec/20_memory.md R66: the check comes before any byte is written. -/
def State.memWrite (s : State) (addr : Nat) (bytes : List Byte) : Except Nat State :=
  if outOfBounds addr bytes.length then .error (max addr 0x1000)
  else .ok (s.storeBytes addr bytes)

/-! ## Registers (spec/10_state.md R20 to R23) -/

/-- `V[x]`. -/
def State.reg (s : State) (x : Reg) : Byte := s.v[x]

/-- `V[x] <- b`. -/
def State.setReg (s : State) (x : Reg) (b : Byte) : State := { s with v := s.v.set x b }

/-- `V[k] <- bytes[k]` for the first `bytes.length` registers; the others keep their value. -/
def State.setRegs (s : State) (bytes : List Byte) : State :=
  { s with v := Vector.ofFn fun k : Reg => bytes.getD k.val (s.reg k) }

/-- `V[0], ..., V[x]`. -/
def State.regsUpTo (s : State) (x : Reg) : List Byte := s.v.toList.take (x.val + 1)

/-- `I <- a`. -/
def State.setIndex (s : State) (a : BitVec 16) : State := { s with i := a }

/-- `npc = (ia + 2) mod 4096` (spec/40_execution_cycle.md R123; 12 bits wrap, decision D2). -/
def State.npc (s : State) : Addr := s.pc + 2

/-- `(npc + 2) mod 4096`, the address after a taken skip (spec/41_control_flow.md R158). -/
def State.skipPc (s : State) : Addr := s.npc + 2

/-! ## How a Step ends (spec/40_execution_cycle.md R124 to R126) -/

/-- The instruction completes and pc becomes `target`; status OK. -/
def State.finish (s : State) (target : Addr) : State := { s with pc := target, status := .ok }

/-- The instruction completes with `pc <- npc`. -/
def State.complete (s : State) : State := s.finish s.npc

/-- The instruction completes; a taken skip steps over the next word. -/
def State.skipIf (s : State) (taken : Bool) : State :=
  s.finish (if taken then s.skipPc else s.npc)

/-- `hold`: the Step ends, pc stays, the reason is reported (R126). -/
def State.hold (s : State) (why : Status) : State := { s with status := why }

/-- `raise E(info)`: error entry (spec/60_exceptions.md R266). `err` and `err_info` are latched, status is
ERROR, pc stays at the failing instruction and nothing else changes. -/
def State.raise (s : State) (k : ErrorKind) (info : Nat) : State :=
  { s with err := some k, errInfo := BitVec.ofNat 17 info, status := .error }

/-- The only way out of an error, and the Reset event itself (spec/60_exceptions.md R268,
spec/70_reset_and_hazards.md R300): every element at its reset value, Q, FONT_BASE and FONT kept (D28).
The host's schedule and random source are not the core's and stay (DESIGN CHOICE,
notes/assumptions/17.md). -/
def State.resetEvent (s : State) : State :=
  { State.resetWith s.cfg with
    inputs := s.inputs, rndSupply := s.rndSupply, rndCount := s.rndCount }

/-- Go on with the outcome of a checked access, or raise MemoryOutOfBounds with the offending address
(spec/60_exceptions.md R264). -/
def State.orOutOfBounds {α : Type} (s : State) (r : Except Nat α) (k : α → Result) : Result :=
  match r with
  | .ok a => k a
  | .error info => .next (s.raise .memoryOutOfBounds info)

/-! ## Fetch (spec/40_execution_cycle.md R123, spec/20_memory.md R62) -/

/-- The word at pc, big-endian, or the out-of-range address when pc = 0xFFF. -/
def State.fetchWord (s : State) : Except Nat Word :=
  match s.memRead s.pc.toNat 2 with
  | .ok bytes => .ok (wordOfBytes (bytes.getD 0 0) (bytes.getD 1 0))
  | .error info => .error info

/-! ## The address stack (spec/10_state.md R24, R25) -/

/-- Push an address: `none` when the stack is full. -/
def State.push (s : State) (a : BitVec 16) : Option State :=
  if h : s.sp.val < 16 then
    some { s with stack := s.stack.set s.sp.val a, sp := ⟨s.sp.val + 1, by omega⟩ }
  else none

/-- Pop: the top entry and the state without it, `none` when the stack is empty. The entry keeps its
value in `stack` (decision D24). -/
def State.pop (s : State) : Option (BitVec 16 × State) :=
  if h : 0 < s.sp.val then
    some (s.stack[s.sp.val - 1]'(by omega), { s with sp := ⟨s.sp.val - 1, by omega⟩ })
  else none

/-! ## The random source (spec/40_execution_cycle.md R130) -/

/-- The byte `Rnd()` answers: the next supplied byte, else the free value of this draw. -/
def State.rndByte (s : State) : Byte := s.rndSupply.headD (Config.freeRnd s.rndCount)

/-- The state after one draw. -/
def State.rndAdvance (s : State) : State :=
  { s with rndSupply := s.rndSupply.tail, rndCount := s.rndCount + 1 }

/-! ## The framebuffer (spec/10_state.md R29, spec/45_display.md R240) -/

/-- The pixel at a position: `fb[y][x]`. -/
def pixel (fb : Screen) (p : Position) : Bool := fb[p.2].getLsbD p.1.val

/-- Toggle the pixel at a position: `fb[y][x] <- fb[y][x] ^ 1`. -/
def togglePixel (fb : Screen) (p : Position) : Screen :=
  fb.set p.2 (fb[p.2] ^^^ BitVec.twoPow 64 p.1.val)

/-! ## Outputs (spec/10_state.md R34, R36, spec/45_display.md R246) -/

/-- The code of an error kind (spec/60_exceptions.md R260). -/
def ErrorKind.code : ErrorKind → BitVec 3
  | .invalidOpcode => 1
  | .stackOverflow => 2
  | .stackUnderflow => 3
  | .memoryOutOfBounds => 4
  | .romTooLarge => 5

/-- The output `err`: 3 bits, 0 for no error. -/
def State.errCode (s : State) : BitVec 3 :=
  match s.err with
  | none => 0
  | some k => k.code

/-- The output `sound_active = (ST ≠ 0)`. -/
def State.soundActive (s : State) : Bool := decide (s.st ≠ 0)

/-- The render port: one pixel of the framebuffer as the host sees it. -/
def State.pixelAt (s : State) (x : Fin 64) (y : Fin 32) : Bool := pixel s.fb (x, y)

end Sys2Proof.Machine
end

