-- ==== Sys2Proof/Machine/Flags.lean ====
section
/-! DEFINITION. Machine/Flags.lean: the value VF takes after each instruction that writes it
(spec/10_state.md R21). The polarities are PRESUMED: the spec takes them from general knowledge
(decision D10; notes/assumptions/8.md); unsafe for a statement about VF. -/

namespace Sys2Proof.Machine

/-- A flag as the byte VF receives: 1 or 0. -/
def flagByte (b : Bool) : Byte := if b then 1 else 0

/-- Carry out of bit 7 of a sum (spec/42_register_alu.md R176). -/
def carryFlag (a b : Byte) : Byte := flagByte (decide (a.toNat + b.toNat > 255))

/-- NOT borrow of `a − b`: 1 when `a ≥ b` (spec/42_register_alu.md R177, R179). -/
def noBorrowFlag (a b : Byte) : Byte := flagByte (decide (a.toNat ≥ b.toNat))

/-- The bit a right shift moves out: bit 0 (spec/42_register_alu.md R178). -/
def shiftRightFlag (a : Byte) : Byte := flagByte (a.getLsbD 0)

/-- The bit a left shift moves out: bit 7 (spec/42_register_alu.md R180). -/
def shiftLeftFlag (a : Byte) : Byte := flagByte (a.getLsbD 7)

/-- Collision: a pixel the sprite toggles was lit before the draw (spec/45_display.md R242). -/
def collisionFlag (fb : Screen) (ps : List Position) : Byte :=
  flagByte (ps.any fun p => pixel fb p)

/-- Write a result and then its flag, so that the flag is what VF holds when x = 15
(spec/42_register_alu.md R181 point 2). -/
def State.setResult (s : State) (x : Reg) (result flag : Byte) : State :=
  (s.setReg x result).setReg vf flag

/-- Write a bitwise result; VF becomes 0 under Q.vf_reset and is not written otherwise
(spec/42_register_alu.md R173 to R175; decision D8). -/
def State.setBitwise (s : State) (x : Reg) (result : Byte) : State :=
  if s.cfg.quirks.vfReset then s.setResult x result 0 else s.setReg x result

end Sys2Proof.Machine
end

