-- ==== Sys2Proof/Machine/Operands.lean ====
section
/-! DEFINITION. Machine/Operands.lean: the operand forms of the instructions: what a quirk selects, the
low nibble of a register, the digits of a byte, the places a sprite's pixels land on. -/

namespace Sys2Proof.Machine

/-- The low nibble of `V[x]`, as a number: the key of Ex9E and ExA1 (spec/44_random_timers_keypad.md
R221, R222) and the glyph of Fx29 (spec/43_index_and_memory.md R202). -/
def State.lowNibble (s : State) (x : Reg) : Nat := (s.reg x &&& 0x0F).toNat

/-- The source of a shift: `V[x]` under Q.shifting, else `V[y]` (spec/42_register_alu.md R178, R180). -/
def State.shiftSource (s : State) (x y : Reg) : Byte :=
  if s.cfg.quirks.shifting then s.reg x else s.reg y

/-- The register Bnnn adds: under Q.jumping `V[x]` with x = nnn[11:8], else `V[0]`
(spec/41_control_flow.md R157). -/
def State.jumpOffset (s : State) (nnn : Addr) : Byte :=
  if s.cfg.quirks.jumping then s.reg (nnn.extractLsb' 8 4).toFin else s.reg 0

/-- The target of Bnnn, without wrap (spec/41_control_flow.md R157). -/
def State.jumpTarget (s : State) (nnn : Addr) : Nat := nnn.toNat + (s.jumpOffset nnn).toNat

/-- Key `k` of the snapshot is down. -/
def State.keyDown (s : State) (k : Nat) : Bool := s.keys.getLsbD k

/-- The keys down now that were up at the last look of the waiting Fx0A
(spec/44_random_timers_keypad.md R224). -/
def State.newlyPressed (s : State) : BitVec 16 := s.keys &&& ~~~s.keyPrev

/-- The smallest key number in a set of keys (R224, decision D18); 0 for the empty set, which no caller
gives. -/
def lowestKey (ks : BitVec 16) : Byte :=
  BitVec.ofNat 8 (((List.range 16).find? fun k => ks.getLsbD k).getD 0)

/-- The decimal digits of a byte: hundreds, tens, ones (spec/43_index_and_memory.md R203). -/
def bcdDigits (b : Byte) : List Byte :=
  [BitVec.ofNat 8 (b.toNat / 100), BitVec.ofNat 8 (b.toNat / 10 % 10), BitVec.ofNat 8 (b.toNat % 10)]

/-- The address of a glyph: FONT_BASE + 5·g (spec/20_memory.md R73). -/
def glyphAddress (c : Config) (g : Nat) : BitVec 16 := BitVec.ofNat 16 (c.fontBase.val + 5 * g)

/-- I after a block move of the registers 0..x: advanced by x + 1 under Q.memory_increment
(spec/43_index_and_memory.md R204, R205). -/
def State.advanceIndex (s : State) (x : Reg) : State :=
  if s.cfg.quirks.memoryIncrement then s.setIndex (s.i + BitVec.ofNat 16 (x.val + 1)) else s

/-- The column a sprite starts at (spec/45_display.md R242). -/
def State.spriteColumn (s : State) (x : Reg) : Nat := (s.reg x).toNat % 64

/-- The row a sprite starts at (spec/45_display.md R242). -/
def State.spriteRow (s : State) (y : Reg) : Nat := (s.reg y).toNat % 32

/-- Where a pixel computed at `(px, py)` lands: dropped past an edge when clipping, else wrapped
(spec/45_display.md R242). -/
def placePixel (clip : Bool) (px py : Nat) : Option Position :=
  if clip && (decide (px > 63) || decide (py > 31)) then none
  else some (Fin.ofNat 64 px, Fin.ofNat 32 py)

/-- The pixels one sprite row toggles: bit 7 is column 0 (spec/45_display.md R242, R244). -/
def rowPixels (clip : Bool) (x0 py : Nat) (row : Byte) : List Position :=
  (List.range 8).filterMap fun c => if row.getLsbD (7 - c) then placePixel clip (x0 + c) py else none

/-- The pixels a sprite toggles, its first row at `py` (spec/45_display.md R242). -/
def spritePixels (clip : Bool) (x0 : Nat) : Nat → List Byte → List Position
  | _, [] => []
  | py, row :: rows => rowPixels clip x0 py row ++ spritePixels clip x0 (py + 1) rows

end Sys2Proof.Machine
end

