-- ==== Sys2Proof/Machine/Alu.lean ====
section
/-! DEFINITION. Machine/Alu.lean: the meanings of the register load and arithmetic-logic instructions
(spec/42_register_alu.md). Operands are read before anything is written (R181 point 1). -/

namespace Sys2Proof.Machine

/-- 6xkk LD Vx,kk (R170). -/
def execLdImm (x : Reg) (kk : Byte) (s : State) : Result := .next (s.setReg x kk).complete

/-- 7xkk ADD Vx,kk (R171): modulo 256, no carry recorded. -/
def execAddImm (x : Reg) (kk : Byte) (s : State) : Result := .next (s.setReg x (s.reg x + kk)).complete

/-- 8xy0 LD Vx,Vy (R172). -/
def execLdReg (x y : Reg) (s : State) : Result := .next (s.setReg x (s.reg y)).complete

/-- 8xy1 OR Vx,Vy (R173). -/
def execOrReg (x y : Reg) (s : State) : Result := .next (s.setBitwise x (s.reg x ||| s.reg y)).complete

/-- 8xy2 AND Vx,Vy (R174). -/
def execAndReg (x y : Reg) (s : State) : Result := .next (s.setBitwise x (s.reg x &&& s.reg y)).complete

/-- 8xy3 XOR Vx,Vy (R175). -/
def execXorReg (x y : Reg) (s : State) : Result := .next (s.setBitwise x (s.reg x ^^^ s.reg y)).complete

/-- 8xy4 ADD Vx,Vy (R176). -/
def execAddReg (x y : Reg) (s : State) : Result :=
  .next (s.setResult x (s.reg x + s.reg y) (carryFlag (s.reg x) (s.reg y))).complete

/-- 8xy5 SUB Vx,Vy (R177). -/
def execSubReg (x y : Reg) (s : State) : Result :=
  .next (s.setResult x (s.reg x - s.reg y) (noBorrowFlag (s.reg x) (s.reg y))).complete

/-- 8xy6 SHR Vx,Vy (R178). -/
def execShr (x y : Reg) (s : State) : Result :=
  .next (s.setResult x (s.shiftSource x y >>> 1) (shiftRightFlag (s.shiftSource x y))).complete

/-- 8xy7 SUBN Vx,Vy (R179). -/
def execSubnReg (x y : Reg) (s : State) : Result :=
  .next (s.setResult x (s.reg y - s.reg x) (noBorrowFlag (s.reg y) (s.reg x))).complete

/-- 8xyE SHL Vx,Vy (R180). -/
def execShl (x y : Reg) (s : State) : Result :=
  .next (s.setResult x (s.shiftSource x y <<< 1) (shiftLeftFlag (s.shiftSource x y))).complete

end Sys2Proof.Machine
end

