-- ==== Sys2Proof/Machine/Control.lean ====
section
/-! DEFINITION. Machine/Control.lean: the meanings of the control flow instructions
(spec/41_control_flow.md). -/

namespace Sys2Proof.Machine

/-- 00EE RET (R150). -/
def execRet (s : State) : Result :=
  match s.pop with
  | some (a, t) => .next (t.finish (a.extractLsb' 0 12))
  | none => .next (s.raise .stackUnderflow 0)

/-- 1nnn JP nnn (R151). -/
def execJp (nnn : Addr) (s : State) : Result := .next (s.finish nnn)

/-- 2nnn CALL nnn (R152). -/
def execCall (nnn : Addr) (s : State) : Result :=
  match s.push (s.npc.setWidth 16) with
  | some t => .next (t.finish nnn)
  | none => .next (s.raise .stackOverflow 0)

/-- 3xkk SE Vx,kk (R153). -/
def execSeImm (x : Reg) (kk : Byte) (s : State) : Result := .next (s.skipIf (s.reg x == kk))

/-- 4xkk SNE Vx,kk (R154). -/
def execSneImm (x : Reg) (kk : Byte) (s : State) : Result := .next (s.skipIf (s.reg x != kk))

/-- 5xy0 SE Vx,Vy (R155). -/
def execSeReg (x y : Reg) (s : State) : Result := .next (s.skipIf (s.reg x == s.reg y))

/-- 9xy0 SNE Vx,Vy (R156). -/
def execSneReg (x y : Reg) (s : State) : Result := .next (s.skipIf (s.reg x != s.reg y))

/-- Bnnn JP V0,nnn (R157; decision D3: a sum above 0xFFF raises). -/
def execJpV0 (nnn : Addr) (s : State) : Result :=
  if s.jumpTarget nnn > 0xFFF then .next (s.raise .memoryOutOfBounds (s.jumpTarget nnn))
  else .next (s.finish (BitVec.ofNat 12 (s.jumpTarget nnn)))

end Sys2Proof.Machine
end

