-- ==== Sys2Proof/Machine/Display.lean ====
section
/-! DEFINITION. Machine/Display.lean: the meanings of the display instructions and the draw state machine
(spec/45_display.md). -/

namespace Sys2Proof.Machine

/-- 00E0 CLS (R241): never holds and leaves dw. -/
def execCls (s : State) : Result := .next { s with fb := Vector.replicate 32 0 }.complete

/-- The pixels DRW toggles, from the rows it has read (R242). -/
def State.drawPixels (s : State) (x y : Reg) (rows : List Byte) : List Position :=
  spritePixels s.cfg.quirks.clipping (s.spriteColumn x) (s.spriteRow y) rows

/-- The draw itself: the pixels toggled, VF the collision, the draw state after it (R242, R243). -/
def State.drawn (s : State) (ps : List Position) : State :=
  { s with
    fb := ps.foldl togglePixel s.fb
    dw := if s.cfg.quirks.displayWait then .waitBlank else s.dw }.setReg vf (collisionFlag s.fb ps)

/-- A draw must wait for the tick (R243). -/
def State.drawMustWait (s : State) : Bool := s.cfg.quirks.displayWait && s.dw == .waitBlank

/-- Dxyn DRW Vx,Vy,n (R242): the bounds check, then the display-wait hold, then the draw
(decision D20). -/
def execDrw (x y : Reg) (n : BitVec 4) (s : State) : Result :=
  s.orOutOfBounds (s.memRead s.i.toNat n.toNat) fun rows =>
    if s.drawMustWait then .next (s.hold .awaitBlank)
    else .next (s.drawn (s.drawPixels x y rows)).complete

end Sys2Proof.Machine
end

