-- ==== Sys2Proof/Machine/IndexMemory.lean ====
section
/-! DEFINITION. Machine/IndexMemory.lean: the meanings of the index register and memory instructions
(spec/43_index_and_memory.md). The base address is the whole 16-bit I, never masked (R206). -/

namespace Sys2Proof.Machine

/-- Annn LD I,nnn (R200). -/
def execLdI (nnn : Addr) (s : State) : Result := .next (s.setIndex (nnn.setWidth 16)).complete

/-- Fx1E ADD I,Vx (R201): modulo 65536, VF not written (decision D4). -/
def execAddI (x : Reg) (s : State) : Result :=
  .next (s.setIndex (s.i + (s.reg x).setWidth 16)).complete

/-- Fx29 LD F,Vx (R202). -/
def execLdF (x : Reg) (s : State) : Result :=
  .next (s.setIndex (glyphAddress s.cfg (s.lowNibble x))).complete

/-- Fx33 LD B,Vx (R203). -/
def execLdB (x : Reg) (s : State) : Result :=
  s.orOutOfBounds (s.memWrite s.i.toNat (bcdDigits (s.reg x))) fun t => .next t.complete

/-- Fx55 LD [I],Vx (R204). -/
def execStoreRegs (x : Reg) (s : State) : Result :=
  s.orOutOfBounds (s.memWrite s.i.toNat (s.regsUpTo x)) fun t => .next (t.advanceIndex x).complete

/-- Fx65 LD Vx,[I] (R205). -/
def execLoadRegs (x : Reg) (s : State) : Result :=
  s.orOutOfBounds (s.memRead s.i.toNat (x.val + 1)) fun bytes =>
    .next ((s.setRegs bytes).advanceIndex x).complete

end Sys2Proof.Machine
end

