-- ==== Sys2Proof/Machine/TimersKeys.lean ====
section
/-! DEFINITION. Machine/TimersKeys.lean: the meanings of the random, timer and keypad instructions
(spec/44_random_timers_keypad.md). -/

namespace Sys2Proof.Machine

/-- Cxkk RND Vx,kk (R220): one draw, also when kk = 0. -/
def execRnd (x : Reg) (kk : Byte) (s : State) : Result :=
  .next (s.rndAdvance.setReg x (s.rndByte &&& kk)).complete

/-- Ex9E SKP Vx (R221). -/
def execSkp (x : Reg) (s : State) : Result := .next (s.skipIf (s.keyDown (s.lowNibble x)))

/-- ExA1 SKNP Vx (R222). -/
def execSknp (x : Reg) (s : State) : Result := .next (s.skipIf (!s.keyDown (s.lowNibble x)))

/-- Fx07 LD Vx,DT (R223). -/
def execLdVxDt (x : Reg) (s : State) : Result := .next (s.setReg x s.dt).complete

/-- Fx0A LD Vx,K (R224): the first Step looks and holds; a later Step completes when a key is newly
pressed, with the lowest-numbered one (decision D18), and else looks again and holds. -/
def execLdVxK (x : Reg) (s : State) : Result :=
  if s.kw then
    if s.newlyPressed = 0 then .next ({ s with keyPrev := s.keys }.hold .awaitKey)
    else .next ({ s with kw := false }.setReg x (lowestKey s.newlyPressed)).complete
  else .next ({ s with kw := true, keyPrev := s.keys }.hold .awaitKey)

/-- Fx15 LD DT,Vx (R225). -/
def execLdDtVx (x : Reg) (s : State) : Result := .next { s with dt := s.reg x }.complete

/-- Fx18 LD ST,Vx (R226). -/
def execLdStVx (x : Reg) (s : State) : Result := .next { s with st := s.reg x }.complete

end Sys2Proof.Machine
end

