-- ==== Sys2Proof/Machine/Events.lean ====
section
/-! DEFINITION. Machine/Events.lean: the host's events other than Step (spec/40_execution_cycle.md R127,
R128, spec/20_memory.md R74); Reset is `State.resetEvent` in Ops.lean. They act the same whether the core
runs, holds or is halted. -/

namespace Sys2Proof.Machine

/-- A timer after one tick: one less while nonzero (R127). -/
def tickTimer (t : Byte) : Byte := if t = 0 then 0 else t - 1

/-- Tick (R127): both timers count down and the vertical blank ends a display wait. -/
def State.tick (s : State) : State :=
  { s with dt := tickTimer s.dt, st := tickTimer s.st, dw := .idle }

/-- KeypadWrite (R128). -/
def State.keypadWrite (ks : BitVec 16) (s : State) : State := { s with keys := ks }

/-- A ROM fits in 0x200..0xFFF: at most 3584 bytes (spec/00_scope.md R5, ROM_MAX). -/
def romFits (bytes : List Byte) : Bool := decide (bytes.length ≤ 3584)

/-- LoadRom (spec/20_memory.md R74): the bytes from 0x200 on and kw cleared, or RomTooLarge and nothing
changed but the reported result. -/
def State.loadRom (bytes : List Byte) (s : State) : State :=
  if romFits bytes then { s.storeBytes 0x200 bytes with kw := false, loadError := none }
  else { s with loadError := some .romTooLarge }

end Sys2Proof.Machine
end

