-- ==== Sys2Proof/Machine/Cycle.lean ====
section
/-! DEFINITION. Machine/Cycle.lean: the Step event and the delivery of the host's events
(spec/40_execution_cycle.md R120 to R125). -/

namespace Sys2Proof.Machine

/-- The Step event (R121): a halted core reports ERROR and changes nothing (R122); else fetch, decode and
execute, in that order of checks (spec/60_exceptions.md R270). -/
def stepEvent (s : State) : Result :=
  match s.err with
  | some _ => .next (s.hold .error)
  | none =>
    match s.fetchWord with
    | .error info => .next (s.raise .memoryOutOfBounds info)
    | .ok w =>
      match decodeWord w with
      | .ok i => exec i s
      | .error _ => .next (s.raise .invalidOpcode w.toNat)

/-- Deliver one event (R120). -/
def deliver (e : HostEvent) (s : State) : Result :=
  match e with
  | .reset => .next s.resetEvent
  | .loadRom bytes => .next (s.loadRom bytes)
  | .step => stepEvent s
  | .tick => .next s.tick
  | .keypadWrite ks => .next (s.keypadWrite ks)

/-- Take the next event: the first one the host has scheduled, and a Step when none is
(R131, R132; notes/assumptions/2.md). -/
def nextEvent (s : State) : HostEvent × State :=
  match s.inputs with
  | [] => (.step, s)
  | e :: rest => (e, { s with inputs := rest })

/-- Where `withFetchWord` puts the instruction: at pc, and at 0x200 when pc = 0xFFF, from which nothing can
be fetched (notes/assumptions/13.md). -/
def State.placeAddr (s : State) : Addr := if s.pc = 0xFFF then 0x200 else s.pc

/-- The state with one word placed so that the very next event is a Step that fetches it: no event waits,
the error latch is clear (notes/assumptions/13.md). -/
def State.placeWord (s : State) (w : Word) : State :=
  { s.storeBytes s.placeAddr.toNat (bytesOfWord w) with
    pc := s.placeAddr, inputs := [], err := none, errInfo := 0 }

end Sys2Proof.Machine
end

