-- ==== Sys2Proof/Machine/Step.lean ====
section
/-! DEFINITION. Machine/Step.lean: one step of the machine is one event of the host
(spec/40_execution_cycle.md R120), and the placing of one instruction for the host's probes. -/

namespace Sys2Proof.Machine

/-- One event, delivered. -/
def step (s : State) : Host.Outcome State Fault Refusal :=
  deliver (nextEvent s).1 (nextEvent s).2

/-- `s` with the instruction of bits `w` (numbered as spec/opcode_table.json numbers them) placed where
`step` fetches next, so that the very next step runs it. -/
def State.withFetchWord (s : State) (nbits w : Nat) : State :=
  s.placeWord (BitVec.ofNat 16 (w % 2 ^ nbits))

end Sys2Proof.Machine
end

