-- ==== Sys2Proof/Safety.lean ====
section
/-! DEFINITION. Safety.lean: the terms statements are made in: what a step keeps, the invariant of the
machine, halted and finished states, safe runs. -/

namespace Sys2Proof.Machine

/-! ## Frames: the parts of the state and what it means to keep one -/

/-- The parts of the state, for saying which of them an instruction or an event leaves unchanged. -/
inductive Part where
  /-- All sixteen V registers. -/
  | regs
  /-- I. -/
  | index
  | pc
  /-- sp and the sixteen stack entries. -/
  | stack
  /-- DT. -/
  | delay
  /-- ST. -/
  | sound
  /-- Every byte of memory. -/
  | memory
  /-- Every pixel. -/
  | screen
  | keys
  /-- dw. -/
  | draw
  /-- kw and key_prev. -/
  | keyWait
  /-- err and err_info. -/
  | latch
  /-- The reported outcome of the last Step. -/
  | status
  /-- The reported result of the last LoadRom. -/
  | loadResult
  /-- The host's scheduled events. -/
  | schedule
  /-- The random source: what it supplies and how far it has been drawn. -/
  | random
  /-- Q, FONT_BASE, FONT. -/
  | config
  deriving DecidableEq, Repr

/-- `t` has the same value as `s` in one part of the state. Memory is compared through reads of single
bytes, the screen through single pixels. -/
def Keeps (s t : State) : Part → Prop
  | .regs => ∀ j, t.reg j = s.reg j
  | .index => t.i = s.i
  | .pc => t.pc = s.pc
  | .stack => t.sp = s.sp ∧ t.stack = s.stack
  | .delay => t.dt = s.dt
  | .sound => t.st = s.st
  | .memory => ∀ a, t.byteAt a = s.byteAt a
  | .screen => ∀ x y, t.pixelAt x y = s.pixelAt x y
  | .keys => t.keys = s.keys
  | .draw => t.dw = s.dw
  | .keyWait => t.kw = s.kw ∧ t.keyPrev = s.keyPrev
  | .latch => t.err = s.err ∧ t.errInfo = s.errInfo
  | .status => t.status = s.status
  | .loadResult => t.loadError = s.loadError
  | .schedule => t.inputs = s.inputs
  | .random => t.rndSupply = s.rndSupply ∧ t.rndCount = s.rndCount
  | .config => t.cfg = s.cfg

/-- `t` differs from `s` at most in the parts listed. -/
def ChangesOnly (parts : List Part) (s t : State) : Prop := ∀ p, p ∉ parts → Keeps s t p

/-- Every register outside the list keeps its value. -/
def KeepsRegsBut (xs : List Reg) (s t : State) : Prop := ∀ j, j ∉ xs → t.reg j = s.reg j

/-- Every byte outside the `n` bytes from `a` reads as before. -/
def KeepsBytesOutside (a n : Nat) (s t : State) : Prop :=
  ∀ b, ¬(a ≤ b ∧ b < a + n) → t.byteAt b = s.byteAt b

/-- The instruction completed and pc moved on by `n` bytes, modulo 4096 (spec/41_control_flow.md R158). -/
def MovedBy (n : Nat) (s t : State) : Prop :=
  t.pc.toNat = (s.pc.toNat + n) % 4096 ∧ t.status = .ok

/-- `t` is `s` with error `k` and value `info` latched by a Step that raised: status ERROR and nothing else
changed (spec/60_exceptions.md R266). -/
def Raised (k : ErrorKind) (info : Nat) (s t : State) : Prop :=
  t.err = some k ∧ t.errInfo = BitVec.ofNat 17 info ∧ t.status = .error ∧
    ChangesOnly [.latch, .status] s t

/-! ## When the next event is a Step -/

/-- The next event of `s` is a Step, and `u` is the state it acts on: `s` itself when the host has scheduled
nothing, else `s` without the Step at the head of the schedule (notes/assumptions/2.md). -/
def NextIsStep (s u : State) : Prop :=
  s.inputs = [] ∧ u = s ∨ ∃ rest, s.inputs = .step :: rest ∧ u = { s with inputs := rest }

/-! ## The invariant (spec/10_state.md R42) -/

/-- What holds after every event, given that it held before (spec/10_state.md R42; `sp ≤ 16` and
`pc ≤ 0xFFF` are in the types of the fields). -/
structure State.Inv (s : State) : Prop where
  /-- Memory is in its canonical form. -/
  memory : Memory.wf s.cfg s.mem = true
  /-- The upper four bits of every stack entry are 0 (spec/93_implementation_defined.md Part 2). -/
  stackHigh : ∀ k : Fin 16, s.stack[k] ≤ 0x0FFF
  /-- `dw = WAIT_BLANK` only if Q.display_wait. -/
  drawWait : s.dw = .waitBlank → s.cfg.quirks.displayWait = true
  /-- `kw = 1` only if `err = 0` and the word at pc decodes to Fx0A. -/
  keyWait : s.kw = true →
    s.err = none ∧ ∃ w x, s.fetchWord = .ok w ∧ decodeWord w = .ok (.ldVxK x)
  /-- RomTooLarge is never latched (spec/60_exceptions.md R265). -/
  latchKind : s.err ≠ some .romTooLarge
  /-- err_info is 0 unless an error with a value is latched (spec/10_state.md R34). -/
  infoZero : s.err = none ∨ s.err = some .stackOverflow ∨ s.err = some .stackUnderflow →
    s.errInfo = 0
  /-- For InvalidOpcode err_info is a word that is no instruction (spec/60_exceptions.md R261). -/
  infoWord : s.err = some .invalidOpcode →
    s.errInfo.toNat ≤ 0xFFFF ∧ wordWellFormed (s.errInfo.setWidth 16) = false
  /-- For MemoryOutOfBounds err_info is an address above 0xFFF, at most 0x1000E
  (spec/60_exceptions.md R260). -/
  infoAddress : s.err = some .memoryOutOfBounds →
    0x1000 ≤ s.errInfo.toNat ∧ s.errInfo.toNat ≤ 0x1000E
  /-- LoadRom reports Ok or RomTooLarge (spec/20_memory.md R74). -/
  loadKind : s.loadError = none ∨ s.loadError = some .romTooLarge

/-! ## Halted, finished, safe -/

/-- The core is halted (spec/40_execution_cycle.md R122). -/
def State.Halted (s : State) : Prop := s.err ≠ none

/-- The program is finished (spec/70_reset_and_hazards.md R308): no error, no key wait, and the word at pc
is a jump to pc. -/
def State.Finished (s : State) : Prop :=
  s.err = none ∧ s.kw = false ∧ s.fetchWord = .ok (0x1000 ||| s.pc.setWidth 16)

/-- A run of `k` events from `s` is safe when no state on it is halted: an error is a fault of the
program, never a successful end (spec/70_reset_and_hazards.md R308). -/
def SafeFor : Nat → State → Prop
  | 0, s => ¬s.Halted
  | k + 1, s => ¬s.Halted ∧ ∀ t, step s = .next t → SafeFor k t

end Sys2Proof.Machine
end

