-- ==== Sys2Proof/Certificates/Slice0/Obligations.lean ====
section
/-! DEFINITION. Certificates/Slice0/Obligations.lean: the statements for the provers, from the numbered
rules of spec/. `ChangesOnly`, `KeepsRegsBut`, `KeepsBytesOutside`, `MovedBy`, `Raised`,
`NextIsStep` and `State.Inv` are
those of Safety.lean. Where a statement rests on a decision D<n> of the spec or a convention of the model,
its docstring says so. -/

open Sys2Proof Sys2Proof.Machine

/-! ## Encoding (spec/30_encoding.md) -/

/-- Decoding an encoded instruction gives it back, with every operand at every value, whatever bytes
follow. The patterns are those of the opcode map (section 3; decision D11). -/
def Obligations.DecodeOfEncodeIsIdentity : Prop :=
  ∀ (i : Instr) (rest : List Byte),
    decodeWord (encodeWord i) = .ok i ∧ decode (encode i ++ rest) = .ok (i, rest)

/-- A word that decodes is the encoding of what it decodes to: no bit of a valid word is ignored
(section 3; decisions D7, D11). -/
def Obligations.DecodedWordReencodesToItself : Prop :=
  ∀ (w : Word) (i : Instr), decodeWord w = .ok i → encodeWord i = w

/-- The decoder, written by nibbles, accepts exactly the words that match a row of the opcode map, and
answers an instruction of that row; every other word is rejected as InvalidOpcode (sections 1 and 3;
decisions D7, D11). -/
def Obligations.DecoderAgreesWithOpcodeMap : Prop :=
  ∀ w : Word,
    (wordWellFormed w = true → ∃ i, decodeWord w = .ok i ∧ i.opRow.matches w = true) ∧
    (wordWellFormed w = false → decodeWord w = .error (.invalidOpcode w))

/-- The invalid words are those of the table of section 3 (decision D7), group by group. -/
def Obligations.InvalidWordsByGroup : Prop :=
  ∀ w : Word,
    decodeWord w = .error (.invalidOpcode w) ↔
      (w.toNat / 4096 = 0x0 ∧ w.toNat ≠ 0x00E0 ∧ w.toNat ≠ 0x00EE) ∨
      (w.toNat / 4096 = 0x5 ∧ w.toNat % 16 ≠ 0) ∨
      (w.toNat / 4096 = 0x8 ∧ w.toNat % 16 ∈ [0x8, 0x9, 0xA, 0xB, 0xC, 0xD, 0xF]) ∨
      (w.toNat / 4096 = 0x9 ∧ w.toNat % 16 ≠ 0) ∨
      (w.toNat / 4096 = 0xE ∧ w.toNat % 256 ∉ [0x9E, 0xA1]) ∨
      (w.toNat / 4096 = 0xF ∧
        w.toNat % 256 ∉ [0x07, 0x0A, 0x15, 0x18, 0x1E, 0x29, 0x33, 0x55, 0x65])

/-- Words written out from the patterns decode to the instructions they stand for, one of each format. -/
def Obligations.SampleWordsDecode : Prop :=
  decodeWord 0x00EE = .ok .ret ∧ decodeWord 0x1ABC = .ok (.jp 0xABC) ∧
  decodeWord 0x332A = .ok (.seImm 3 0x2A) ∧ decodeWord 0x8F14 = .ok (.addReg 15 1) ∧
  decodeWord 0xA2F0 = .ok (.ldI 0x2F0) ∧ decodeWord 0xC30F = .ok (.rnd 3 0x0F) ∧
  decodeWord 0xD125 = .ok (.drw 1 2 5) ∧ decodeWord 0xF265 = .ok (.loadRegs 2)

/-! ## Step, errors and holds (spec/40_execution_cycle.md, spec/60_exceptions.md) -/

/-- When the bytes at pc decode to an instruction, a Step is that instruction's execution, whether the host
has scheduled the Step or nothing (the schedule is the model's, notes/assumptions/2.md). -/
def Obligations.StepRunsDecodedInstruction : Prop :=
  ∀ (s u : State) (i : Instr), NextIsStep s u → u.err = none → u.pc ≠ 0xFFF →
    decode [u.byteAt u.pc.toNat, u.byteAt (u.pc.toNat + 1)] = .ok (i, []) →
    step s = exec i u

/-- Every state has a next state: no event stops the machine (spec/93_implementation_defined.md, end of
Part 2). -/
def Obligations.EveryStateHasASuccessor : Prop :=
  ∀ s : State, ∃ t, step s = .next t

/-- A Step of a halted core reports ERROR and changes nothing (decision D5). -/
def Obligations.HaltedStepChangesNothing : Prop :=
  ∀ s u : State, NextIsStep s u → u.Halted → step s = .next { u with status := .error }

/-- While an error is latched no event but Reset clears it, and until then only DT, ST, dw, keys, memory
and the reported results can change (section 2 and the invariants of spec/10_state.md section 8;
decision D5). -/
def Obligations.OnlyResetRevivesHaltedCore : Prop :=
  ∀ s t : State, s.Inv → s.Halted → s.inputs.head? ≠ some .reset → step s = .next t →
    t.Halted ∧
    ChangesOnly [.delay, .sound, .draw, .keys, .memory, .status, .loadResult, .schedule] s t

/-- A Step at pc = 0xFFF raises MemoryOutOfBounds with address 0x1000 (decision D31). -/
def Obligations.FetchAtTopRaises : Prop :=
  ∀ s u : State, NextIsStep s u → u.err = none → u.pc = 0xFFF →
    ∃ t, step s = .next t ∧ Raised .memoryOutOfBounds 0x1000 u t

/-- A Step whose word matches no row of the opcode map raises InvalidOpcode with the word
(section 1 of spec/60_exceptions.md). That it is latched and nothing else changes, pc included, is error
entry (section 2), the spec's decision D5; which words are invalid is D7, the code is D6. -/
def Obligations.InvalidWordRaisesInvalidOpcode : Prop :=
  ∀ s u : State, NextIsStep s u → u.err = none → u.pc ≠ 0xFFF →
    wordWellFormed (u.byteAt u.pc.toNat ++ u.byteAt (u.pc.toNat + 1)) = false →
    ∃ t, step s = .next t ∧ t.errCode = 1 ∧
      Raised .invalidOpcode (256 * (u.byteAt u.pc.toNat).toNat + (u.byteAt (u.pc.toNat + 1)).toNat) u t

/-- Errors are precise: a Step that raises changes nothing but the latch and the reported status; in
particular pc stays at the failing instruction (sections 2 of both files). -/
def Obligations.RaisingStepIsPrecise : Prop :=
  ∀ s u t : State, NextIsStep s u → u.err = none → step s = .next t → t.Halted →
    t.status = .error ∧ t.err ≠ some .romTooLarge ∧ ChangesOnly [.latch, .status] u t

/-- A held Step is one of Fx0A or Dxyn at pc; it changes nothing but the reported status and, for Fx0A,
the key-wait state (section 2; decision D17). -/
def Obligations.HeldStepChangesNothing : Prop :=
  ∀ s u t : State, NextIsStep s u → u.err = none → step s = .next t →
    (t.status = .awaitKey →
      ChangesOnly [.keyWait, .status] u t ∧ t.kw = true ∧
      ∃ w x, u.fetchWord = .ok w ∧ decodeWord w = .ok (.ldVxK x)) ∧
    (t.status = .awaitBlank →
      ChangesOnly [.status] u t ∧ u.cfg.quirks.displayWait = true ∧ u.dw = .waitBlank ∧
      ∃ w x y n, u.fetchWord = .ok w ∧ decodeWord w = .ok (.drw x y n))

/-! ## The host's events -/

/-- Tick: both timers count down while nonzero, the display wait ends, nothing else changes, in every state
(spec/40_execution_cycle.md section 3; decision D23 for a holding or halted core). -/
def Obligations.TickCountsDownAndEndsBlankWait : Prop :=
  ∀ (s : State) (rest : List HostEvent), s.inputs = .tick :: rest →
    ∃ t, step s = .next t ∧
      t.dt.toNat = (if 0 < s.dt.toNat then s.dt.toNat - 1 else 0) ∧
      t.st.toNat = (if 0 < s.st.toNat then s.st.toNat - 1 else 0) ∧
      t.dw = .idle ∧ t.inputs = rest ∧
      ChangesOnly [.delay, .sound, .draw, .schedule] s t

/-- After `k` Ticks each timer is `k` lower, and never below zero (spec/10_state.md section 3). -/
def Obligations.TimersStopAtZero : Prop :=
  ∀ (k : Nat) (s : State) (rest : List HostEvent), s.inputs = List.replicate k .tick ++ rest →
    ∃ t : State, Host.Core.run core k s = Host.Outcome.next t ∧ t.dt.toNat = s.dt.toNat - k ∧ t.st.toNat = s.st.toNat - k ∧
      t.soundActive = decide (k < s.st.toNat)

/-- KeypadWrite replaces the snapshot and touches nothing else, whatever the core is doing (R128). -/
def Obligations.KeypadWriteSetsSnapshotOnly : Prop :=
  ∀ (s : State) (ks : BitVec 16) (rest : List HostEvent), s.inputs = .keypadWrite ks :: rest →
    ∃ t, step s = .next t ∧ t.keys = ks ∧ t.inputs = rest ∧ ChangesOnly [.keys, .schedule] s t

/-- LoadRom copies a ROM of at most 3584 bytes to 0x200 and clears kw; a longer one changes nothing but
the reported result (spec/20_memory.md section 7; decision D22). -/
def Obligations.LoadRomCopiesOrRefuses : Prop :=
  ∀ (s : State) (bytes : List Byte) (rest : List HostEvent),
    Memory.wf s.cfg s.mem = true → s.inputs = .loadRom bytes :: rest →
    ∃ t, step s = .next t ∧ t.inputs = rest ∧
      (bytes.length ≤ 3584 →
        t.loadError = none ∧ t.kw = false ∧ t.keyPrev = s.keyPrev ∧
        (∀ k (h : k < bytes.length), t.byteAt (0x200 + k) = bytes[k]) ∧
        KeepsBytesOutside 0x200 bytes.length s t ∧
        ChangesOnly [.memory, .keyWait, .loadResult, .schedule] s t) ∧
      (3584 < bytes.length →
        t.loadError = some .romTooLarge ∧ ChangesOnly [.loadResult, .schedule] s t)

/-- Reset puts every element at its reset value, the font back at FONT_BASE, and keeps Q, FONT_BASE and
FONT (spec/70_reset_and_hazards.md section 1). The zeros are decision D16; the reported results after
Reset are the model's choice (notes/assumptions/4.md, 5.md, 17.md). -/
def Obligations.ResetRestoresEveryElement : Prop :=
  ∀ (s : State) (rest : List HostEvent), s.inputs = .reset :: rest →
    ∃ t, step s = .next t ∧ t.pc = 0x200 ∧ (∀ x, t.reg x = 0) ∧ t.i = 0 ∧
      t.sp = 0 ∧ (∀ k : Fin 16, t.stack[k] = 0) ∧ t.dt = 0 ∧ t.st = 0 ∧
      (∀ (g : Fin 16) (r : Fin 5),
        t.byteAt (s.cfg.fontBase.val + 5 * g.val + r.val) = (s.cfg.font[g])[r]) ∧
      (∀ a, ¬(s.cfg.fontBase.val ≤ a ∧ a < s.cfg.fontBase.val + 80) → t.byteAt a = 0) ∧
      (∀ x y, t.pixelAt x y = false) ∧ t.keys = 0 ∧ t.dw = .idle ∧ t.kw = false ∧ t.keyPrev = 0 ∧
      t.err = none ∧ t.errInfo = 0 ∧ t.cfg = s.cfg ∧ t.inputs = rest ∧
      t.rndSupply = s.rndSupply ∧ t.rndCount = s.rndCount

/-! ## Whole-machine rules -/

/-- The reset state of every configuration meets the invariant. -/
def Obligations.ResetStateMeetsInvariant : Prop :=
  (∀ c : Config, (State.resetWith c).Inv) ∧ State.reset.Inv

/-- Every event keeps the invariant of spec/10_state.md section 8: memory in its canonical form, the high
bits of the stack entries zero, the draw and key waits legal, the error latch consistent. -/
def Obligations.EveryEventKeepsInvariant : Prop :=
  ∀ s t : State, s.Inv → step s = .next t → t.Inv

/-- No event changes Q, FONT_BASE or FONT, and each event uses up one entry of the schedule
(spec/10_state.md section 5; decision D28; the schedule is the model's, notes/assumptions/2.md). -/
def Obligations.ConfigurationNeverChanges : Prop :=
  ∀ s t : State, step s = .next t → t.cfg = s.cfg ∧ t.inputs = s.inputs.tail

/-- The writers of each state element: an instruction not listed for an element leaves it alone
(spec/10_state.md section 8). The row of VF is `WritersOfVF`, those of the events are in the statements
about the events. -/
def Obligations.WritersOfEachElement : Prop :=
  ∀ (i : Instr) (s t : State), exec i s = .next t →
    ChangesOnly [.regs, .index, .pc, .stack, .delay, .sound, .memory, .screen, .draw, .keyWait, .latch,
      .status, .random] s t ∧
    (∀ j : Reg, j ≠ vf → t.reg j ≠ s.reg j →
      (∃ kk, i ∈ [.ldImm j kk, .addImm j kk, .rnd j kk]) ∨
      (∃ y, i ∈ [.ldReg j y, .orReg j y, .andReg j y, .xorReg j y, .addReg j y, .subReg j y, .shr j y,
        .subnReg j y, .shl j y]) ∨
      i = .ldVxDt j ∨ i = .ldVxK j ∨ ∃ x, j ≤ x ∧ i = .loadRegs x) ∧
    (t.i ≠ s.i → (∃ nnn, i = .ldI nnn) ∨ (∃ x, i = .addI x ∨ i = .ldF x) ∨
      s.cfg.quirks.memoryIncrement = true ∧ ∃ x, i = .storeRegs x ∨ i = .loadRegs x) ∧
    (¬Keeps s t .stack → i = .ret ∨ ∃ nnn, i = .call nnn) ∧
    (t.dt ≠ s.dt → ∃ x, i = .ldDtVx x) ∧
    (t.st ≠ s.st → ∃ x, i = .ldStVx x) ∧
    (¬Keeps s t .memory → ∃ x, i = .ldB x ∨ i = .storeRegs x) ∧
    (¬Keeps s t .screen → i = .cls ∨ ∃ x y n, i = .drw x y n) ∧
    (t.dw ≠ s.dw → s.cfg.quirks.displayWait = true ∧ t.dw = .waitBlank ∧ ∃ x y n, i = .drw x y n) ∧
    (¬Keeps s t .keyWait → ∃ x, i = .ldVxK x) ∧
    (¬Keeps s t .random → ∃ x kk, i = .rnd x kk) ∧
    (t.pc ≠ s.pc → t.status = .ok) ∧
    (¬Keeps s t .latch → t.status = .error ∧
      (i = .ret ∨ (∃ nnn, i = .call nnn ∨ i = .jpV0 nnn) ∨
        (∃ x, i = .ldB x ∨ i = .storeRegs x ∨ i = .loadRegs x) ∨ ∃ x y n, i = .drw x y n))

/-- VF changes only by the flag writers of spec/10_state.md section 1 and by an instruction that names it
as its destination with x = 15 (decisions D8, D27). -/
def Obligations.WritersOfVF : Prop :=
  ∀ (i : Instr) (s t : State), exec i s = .next t → t.reg vf ≠ s.reg vf →
    (s.cfg.quirks.vfReset = true ∧ ∃ x y, i = .orReg x y ∨ i = .andReg x y ∨ i = .xorReg x y) ∨
    (∃ x y, i = .addReg x y ∨ i = .subReg x y ∨ i = .shr x y ∨ i = .subnReg x y ∨ i = .shl x y) ∨
    (∃ x y n, i = .drw x y n) ∨
    (∃ kk, i = .ldImm vf kk ∨ i = .addImm vf kk ∨ i = .rnd vf kk) ∨
    (∃ y, i = .ldReg vf y ∨ i = .orReg vf y ∨ i = .andReg vf y ∨ i = .xorReg vf y) ∨
    i = .ldVxDt vf ∨ i = .ldVxK vf ∨ i = .loadRegs vf

/-- Where pc goes: to the target of a completed jump, call or return, over one word more when a skip is
taken, to the next word after every other completed instruction; it stays after a hold or an error
(spec/41_control_flow.md, the summary of pc). -/
def Obligations.ProgramCounterAfterEachInstruction : Prop :=
  ∀ (i : Instr) (s t : State), exec i s = .next t →
    (t.status ≠ .ok → t.pc = s.pc) ∧
    (t.status = .ok →
      match i with
      | .jp nnn => t.pc = nnn
      | .call nnn => t.pc = nnn
      | .ret => ∃ k : Fin 16, s.sp.val = k.val + 1 ∧ t.pc.toNat = (s.stack[k]).toNat % 4096
      | .jpV0 nnn => ∃ r : Reg, r.val = (if s.cfg.quirks.jumping then nnn.toNat / 256 else 0) ∧
          t.pc.toNat = nnn.toNat + (s.reg r).toNat
      | .seImm x kk => MovedBy (if s.reg x = kk then 4 else 2) s t
      | .sneImm x kk => MovedBy (if s.reg x = kk then 2 else 4) s t
      | .seReg x y => MovedBy (if s.reg x = s.reg y then 4 else 2) s t
      | .sneReg x y => MovedBy (if s.reg x = s.reg y then 2 else 4) s t
      | .skp x => MovedBy (if s.keys.getLsbD ((s.reg x).toNat % 16) then 4 else 2) s t
      | .sknp x => MovedBy (if s.keys.getLsbD ((s.reg x).toNat % 16) then 2 else 4) s t
      | _ => MovedBy 2 s t)

/-- A finished program stays as it is: every further Step completes and changes nothing
(spec/70_reset_and_hazards.md section 4; decision D33). -/
def Obligations.FinishedProgramIsAFixedPoint : Prop :=
  ∀ s u : State, NextIsStep s u → u.Finished → step s = .next { u with status := .ok }

/-- A finished program is safe for ever: no run of Steps from it reaches a halted state
(spec/70_reset_and_hazards.md section 4; decision D33). -/
def Obligations.FinishedProgramStaysSafe : Prop :=
  ∀ (k : Nat) (s : State), s.Finished → (∀ e ∈ s.inputs, e = .step) → SafeFor k s

/-- An instruction placed by `withFetchWord` is the one the next step runs (the placing is the model's,
notes/assumptions/13.md). -/
def Obligations.PlacedInstructionRunsNext : Prop :=
  ∀ (s : State) (i : Instr), Memory.wf s.cfg s.mem = true →
    step (s.withFetchWord 16 (encodeWord i).toNat) = exec i (s.withFetchWord 16 (encodeWord i).toNat)

/-! ## Memory primitives (spec/20_memory.md) -/

/-- MemRead and MemWrite (R66): in range, the bytes are read lowest address first, and the bytes written
read back while every other byte is as before; out of range, nothing is done and the lowest offending
address is reported. -/
def Obligations.CheckedMemoryAccess : Prop :=
  ∀ (s : State) (addr : Nat), Memory.wf s.cfg s.mem = true →
    (∀ n, if 0 < n ∧ addr + n - 1 > 0xFFF then s.memRead addr n = .error (max addr 0x1000)
      else ∃ bytes, s.memRead addr n = .ok bytes ∧ bytes.length = n ∧
        ∀ k (h : k < bytes.length), bytes[k] = s.byteAt (addr + k)) ∧
    (∀ bytes : List Byte,
      if 0 < bytes.length ∧ addr + bytes.length - 1 > 0xFFF then
        s.memWrite addr bytes = .error (max addr 0x1000)
      else ∃ t, s.memWrite addr bytes = .ok t ∧
        (∀ k (h : k < bytes.length), t.byteAt (addr + k) = bytes[k]) ∧
        KeepsBytesOutside addr bytes.length s t ∧ ChangesOnly [.memory] s t)

/-- A store is seen by the very next fetch: after LD B,Vx or LD [I],Vx the word fetched at the next pc is made
of two bytes, each the byte just stored there if the store covers its address and the old byte of memory
otherwise (section 5 of spec/20_memory.md, section 3 of spec/70_reset_and_hazards.md). -/
def Obligations.StoreIsSeenByNextFetch : Prop :=
  ∀ (s t : State) (x : Reg) (i : Instr) (stored : List Byte), Memory.wf s.cfg s.mem = true →
    (i = .ldB x ∧ stored.map BitVec.toNat =
        [(s.reg x).toNat / 100, (s.reg x).toNat / 10 % 10, (s.reg x).toNat % 10] ∨
      i = .storeRegs x ∧ stored.length = x.val + 1 ∧ ∀ k : Reg, k ≤ x → stored[k.val]? = some (s.reg k)) →
    exec i s = .next t → t.status = .ok → t.pc ≠ 0xFFF →
    ∃ b0 b1, t.fetchWord = .ok (b0 ++ b1) ∧
      ∀ (a : Nat) (b : Byte), a = t.pc.toNat ∧ b = b0 ∨ a = t.pc.toNat + 1 ∧ b = b1 →
        (∀ k (h : k < stored.length), a = s.i.toNat + k → b = stored[k]) ∧
        (¬(s.i.toNat ≤ a ∧ a < s.i.toNat + stored.length) → b = s.byteAt a)

/-! ## Control flow (spec/41_control_flow.md) -/

/-- JP nnn (R151). -/
def Obligations.JumpGoesToTarget : Prop :=
  ∀ nnn : Addr, decodeWord (0x1#4 ++ nnn) = .ok (.jp nnn) ∧
    ∀ s : State, ∃ t, exec (.jp nnn) s = .next t ∧ t.pc = nnn ∧ t.status = .ok ∧
      ChangesOnly [.pc, .status] s t

/-- CALL nnn (R152): with room on the stack the return address is pushed and pc is the target; with a full
stack StackOverflow is raised. -/
def Obligations.CallPushesReturnAddress : Prop :=
  ∀ nnn : Addr, decodeWord (0x2#4 ++ nnn) = .ok (.call nnn) ∧
    ∀ s : State,
      (∀ k : Fin 16, s.sp.val = k.val →
        ∃ t, exec (.call nnn) s = .next t ∧
          (t.stack[k]).toNat = (s.pc.toNat + 2) % 4096 ∧ t.sp.val = k.val + 1 ∧
          (∀ j : Fin 16, j ≠ k → t.stack[j] = s.stack[j]) ∧
          t.pc = nnn ∧ t.status = .ok ∧ ChangesOnly [.stack, .pc, .status] s t) ∧
      (s.sp.val = 16 →
        ∃ t, exec (.call nnn) s = .next t ∧ t.errCode = 2 ∧ Raised .stackOverflow 0 s t)

/-- RET (R150): the top entry goes to pc and the stack is one shorter, its entries unchanged; with an empty
stack StackUnderflow is raised. -/
def Obligations.ReturnPopsAddress : Prop :=
  decodeWord 0x00EE = .ok .ret ∧
    ∀ s : State,
      (∀ k : Fin 16, s.sp.val = k.val + 1 →
        ∃ t, exec .ret s = .next t ∧ t.pc.toNat = (s.stack[k]).toNat % 4096 ∧ t.sp.val = k.val ∧
          t.stack = s.stack ∧ t.status = .ok ∧ ChangesOnly [.stack, .pc, .status] s t) ∧
      (s.sp.val = 0 →
        ∃ t, exec .ret s = .next t ∧ t.errCode = 3 ∧ Raised .stackUnderflow 0 s t)

/-- A return right after a call comes back behind the call with the stack as deep as before (the rules of
CALL and RET together). -/
def Obligations.ReturnComesBackBehindCall : Prop :=
  ∀ (s t : State) (nnn : Addr), s.sp.val < 16 → exec (.call nnn) s = .next t →
    ∃ u, exec .ret t = .next u ∧ MovedBy 2 s u ∧ u.sp = s.sp

/-- SE Vx,kk and SNE Vx,kk (section on the skips; decision D2 for the wrap at the top of memory). -/
def Obligations.SkipsOnImmediate : Prop :=
  ∀ (x : Reg) (kk : Byte),
    decodeWord (0x3#4 ++ regField x ++ kk) = .ok (.seImm x kk) ∧
    decodeWord (0x4#4 ++ regField x ++ kk) = .ok (.sneImm x kk) ∧
    ∀ s : State,
      (∃ t, exec (.seImm x kk) s = .next t ∧ MovedBy (if s.reg x = kk then 4 else 2) s t ∧
        ChangesOnly [.pc, .status] s t) ∧
      (∃ t, exec (.sneImm x kk) s = .next t ∧ MovedBy (if s.reg x = kk then 2 else 4) s t ∧
        ChangesOnly [.pc, .status] s t)

/-- SE Vx,Vy and SNE Vx,Vy (R155, R156); with x = y the first always skips and the second never. -/
def Obligations.SkipsOnRegisters : Prop :=
  ∀ x y : Reg,
    decodeWord (0x5#4 ++ regField x ++ regField y ++ 0x0#4) = .ok (.seReg x y) ∧
    decodeWord (0x9#4 ++ regField x ++ regField y ++ 0x0#4) = .ok (.sneReg x y) ∧
    ∀ s : State,
      (∃ t, exec (.seReg x y) s = .next t ∧ MovedBy (if s.reg x = s.reg y then 4 else 2) s t ∧
        ChangesOnly [.pc, .status] s t) ∧
      (∃ t, exec (.sneReg x y) s = .next t ∧ MovedBy (if s.reg x = s.reg y then 2 else 4) s t ∧
        ChangesOnly [.pc, .status] s t)

/-- JP V0,nnn: nnn plus V0, or plus Vx with x the top nibble of nnn under Q.jumping; a sum above 0xFFF
raises MemoryOutOfBounds with the sum (decision D3). -/
def Obligations.JumpWithOffset : Prop :=
  ∀ nnn : Addr, decodeWord (0xB#4 ++ nnn) = .ok (.jpV0 nnn) ∧
    ∀ (s : State) (r : Reg) (target : Nat),
      r.val = (if s.cfg.quirks.jumping then nnn.toNat / 256 else 0) →
      target = nnn.toNat + (s.reg r).toNat →
      (target ≤ 0xFFF → ∃ t, exec (.jpV0 nnn) s = .next t ∧ t.pc.toNat = target ∧ t.status = .ok ∧
        ChangesOnly [.pc, .status] s t) ∧
      (0xFFF < target → ∃ t, exec (.jpV0 nnn) s = .next t ∧ Raised .memoryOutOfBounds target s t)

/-! ## Register load and ALU (spec/42_register_alu.md) -/

/-- LD Vx,kk (R170). -/
def Obligations.LoadImmediateResult : Prop :=
  ∀ (x : Reg) (kk : Byte), decodeWord (0x6#4 ++ regField x ++ kk) = .ok (.ldImm x kk) ∧
    ∀ s : State, ∃ t, exec (.ldImm x kk) s = .next t ∧ t.reg x = kk ∧ KeepsRegsBut [x] s t ∧
      MovedBy 2 s t ∧ ChangesOnly [.regs, .pc, .status] s t

/-- ADD Vx,kk wraps modulo 256 and records no carry (section on ADD Vx,kk; decision D27 for VF). -/
def Obligations.AddImmediateResult : Prop :=
  ∀ (x : Reg) (kk : Byte), decodeWord (0x7#4 ++ regField x ++ kk) = .ok (.addImm x kk) ∧
    ∀ s : State, ∃ t, exec (.addImm x kk) s = .next t ∧
      (t.reg x).toNat = ((s.reg x).toNat + kk.toNat) % 256 ∧ KeepsRegsBut [x] s t ∧
      MovedBy 2 s t ∧ ChangesOnly [.regs, .pc, .status] s t

/-- LD Vx,Vy copies and writes no flag (decision D8, conflict C2). -/
def Obligations.CopyRegisterResult : Prop :=
  ∀ x y : Reg,
    decodeWord (0x8#4 ++ regField x ++ regField y ++ 0x0#4) = .ok (.ldReg x y) ∧
    ∀ s : State, ∃ t, exec (.ldReg x y) s = .next t ∧ t.reg x = s.reg y ∧ KeepsRegsBut [x] s t ∧
      MovedBy 2 s t ∧ ChangesOnly [.regs, .pc, .status] s t

/-- OR, AND, XOR: bit by bit on the old values; VF becomes 0 under Q.vf_reset, also when x = 15, and is not
a side effect otherwise (decisions D8, D9). -/
def Obligations.BitwiseResults : Prop :=
  ∀ (x y : Reg) (s : State) (i : Instr) (f : Bool → Bool → Bool),
    (i, f) ∈ [(.orReg x y, fun a b => a || b), (.andReg x y, fun a b => a && b),
      (.xorReg x y, fun a b => a ^^ b)] →
    ∃ t, exec i s = .next t ∧
      (s.cfg.quirks.vfReset = true → t.reg vf = 0 ∧ KeepsRegsBut [x, vf] s t) ∧
      (s.cfg.quirks.vfReset = false → KeepsRegsBut [x] s t) ∧
      (x ≠ vf ∨ s.cfg.quirks.vfReset = false →
        ∀ k, k < 8 → (t.reg x).getLsbD k = f ((s.reg x).getLsbD k) ((s.reg y).getLsbD k)) ∧
      MovedBy 2 s t ∧ ChangesOnly [.regs, .pc, .status] s t

/-- ADD, SUB, SUBN: the result modulo 256 of the old values, VF the carry or NOT borrow, which is what VF
holds when x = 15 (decisions D9, D10). -/
def Obligations.AddSubtractResults : Prop :=
  ∀ (x y : Reg) (s : State) (a b : Nat), a = (s.reg x).toNat → b = (s.reg y).toNat →
    ∀ (i : Instr) (r : Nat) (flag : Bool),
      (i, r, flag) ∈ [(.addReg x y, (a + b) % 256, decide (a + b ≥ 256)),
        (.subReg x y, (256 + a - b) % 256, decide (a ≥ b)),
        (.subnReg x y, (256 + b - a) % 256, decide (b ≥ a))] →
      ∃ t, exec i s = .next t ∧ t.reg vf = (if flag then 1 else 0) ∧
        (x ≠ vf → (t.reg x).toNat = r) ∧ KeepsRegsBut [x, vf] s t ∧
        MovedBy 2 s t ∧ ChangesOnly [.regs, .pc, .status] s t

/-- SHR and SHL by one of Vy, or of Vx under Q.shifting; VF the bit shifted out, which is what VF holds when
x = 15 (section on the shifts; decisions D9, D10). -/
def Obligations.ShiftResults : Prop :=
  ∀ (x y : Reg) (s : State) (v : Nat),
    v = (if s.cfg.quirks.shifting then (s.reg x).toNat else (s.reg y).toNat) →
    ∀ (i : Instr) (r out : Nat),
      (i, r, out) ∈ [(.shr x y, v / 2, v % 2), (.shl x y, 2 * v % 256, v / 128)] →
      ∃ t, exec i s = .next t ∧ (t.reg vf).toNat = out ∧ (x ≠ vf → (t.reg x).toNat = r) ∧
        KeepsRegsBut [x, vf] s t ∧ MovedBy 2 s t ∧ ChangesOnly [.regs, .pc, .status] s t

/-! ## Index register and memory (spec/43_index_and_memory.md) -/

/-- LD I,nnn (R200). -/
def Obligations.LoadIndexResult : Prop :=
  ∀ nnn : Addr, decodeWord (0xA#4 ++ nnn) = .ok (.ldI nnn) ∧
    ∀ s : State, ∃ t, exec (.ldI nnn) s = .next t ∧ t.i.toNat = nnn.toNat ∧
      MovedBy 2 s t ∧ ChangesOnly [.index, .pc, .status] s t

/-- ADD I,Vx wraps modulo 65536, raises nothing and writes no flag (decision D4). -/
def Obligations.AddToIndexResult : Prop :=
  ∀ x : Reg, decodeWord (0xF#4 ++ regField x ++ 0x1E#8) = .ok (.addI x) ∧
    ∀ s : State, ∃ t, exec (.addI x) s = .next t ∧
      t.i.toNat = (s.i.toNat + (s.reg x).toNat) % 65536 ∧
      MovedBy 2 s t ∧ ChangesOnly [.index, .pc, .status] s t

/-- LD F,Vx (R202): the address of the glyph of the low nibble, for every FONT_BASE. -/
def Obligations.FontAddressResult : Prop :=
  ∀ x : Reg, decodeWord (0xF#4 ++ regField x ++ 0x29#8) = .ok (.ldF x) ∧
    ∀ s : State, ∃ t, exec (.ldF x) s = .next t ∧
      t.i.toNat = s.cfg.fontBase.val + 5 * ((s.reg x).toNat % 16) ∧
      MovedBy 2 s t ∧ ChangesOnly [.index, .pc, .status] s t

/-- LD B,Vx: the three decimal digits, hundreds first, at I, I+1, I+2, every other byte as before
(decision D15); past 0xFFF MemoryOutOfBounds is raised and nothing stored. -/
def Obligations.DecimalStoreResult : Prop :=
  ∀ x : Reg, decodeWord (0xF#4 ++ regField x ++ 0x33#8) = .ok (.ldB x) ∧
    ∀ s : State, Memory.wf s.cfg s.mem = true →
      (s.i.toNat + 2 ≤ 0xFFF →
        ∃ t, exec (.ldB x) s = .next t ∧
          (t.byteAt s.i.toNat).toNat = (s.reg x).toNat / 100 ∧
          (t.byteAt (s.i.toNat + 1)).toNat = (s.reg x).toNat / 10 % 10 ∧
          (t.byteAt (s.i.toNat + 2)).toNat = (s.reg x).toNat % 10 ∧
          KeepsBytesOutside s.i.toNat 3 s t ∧ MovedBy 2 s t ∧
          ChangesOnly [.memory, .pc, .status] s t) ∧
      (0xFFF < s.i.toNat + 2 →
        ∃ t, exec (.ldB x) s = .next t ∧ Raised .memoryOutOfBounds (max s.i.toNat 0x1000) s t)

/-- LD [I],Vx (R204): V0 to Vx at I to I+x, every other byte as before, I advanced by x+1 only under
Q.memory_increment; past 0xFFF MemoryOutOfBounds is raised and nothing changes. The recorded address
is that of the checked access (decision D32), the latch with pc unmoved is error entry (decision D5). -/
def Obligations.RegisterStoreResult : Prop :=
  ∀ x : Reg, decodeWord (0xF#4 ++ regField x ++ 0x55#8) = .ok (.storeRegs x) ∧
    ∀ s : State, Memory.wf s.cfg s.mem = true →
      (s.i.toNat + x.val ≤ 0xFFF →
        ∃ t, exec (.storeRegs x) s = .next t ∧
          (∀ k : Reg, k ≤ x → t.byteAt (s.i.toNat + k.val) = s.reg k) ∧
          KeepsBytesOutside s.i.toNat (x.val + 1) s t ∧
          t.i.toNat = (if s.cfg.quirks.memoryIncrement then s.i.toNat + x.val + 1 else s.i.toNat) ∧
          MovedBy 2 s t ∧ ChangesOnly [.memory, .index, .pc, .status] s t) ∧
      (0xFFF < s.i.toNat + x.val →
        ∃ t, exec (.storeRegs x) s = .next t ∧
          Raised .memoryOutOfBounds (max s.i.toNat 0x1000) s t)

/-- LD Vx,[I] (R205): the bytes at I to I+x to V0 to Vx, the registers above x and all of memory as before,
I advanced by x+1 only under Q.memory_increment; past 0xFFF MemoryOutOfBounds is raised and nothing
changes. The recorded address is that of the checked access (decision D32), the latch with pc unmoved
is error entry (decision D5). -/
def Obligations.RegisterLoadResult : Prop :=
  ∀ x : Reg, decodeWord (0xF#4 ++ regField x ++ 0x65#8) = .ok (.loadRegs x) ∧
    ∀ s : State,
      (s.i.toNat + x.val ≤ 0xFFF →
        ∃ t, exec (.loadRegs x) s = .next t ∧
          (∀ k : Reg, k ≤ x → t.reg k = s.byteAt (s.i.toNat + k.val)) ∧
          (∀ k : Reg, x < k → t.reg k = s.reg k) ∧
          t.i.toNat = (if s.cfg.quirks.memoryIncrement then s.i.toNat + x.val + 1 else s.i.toNat) ∧
          MovedBy 2 s t ∧ ChangesOnly [.regs, .index, .pc, .status] s t) ∧
      (0xFFF < s.i.toNat + x.val →
        ∃ t, exec (.loadRegs x) s = .next t ∧
          Raised .memoryOutOfBounds (max s.i.toNat 0x1000) s t)

/-- With I above 0xFFF each instruction that accesses memory through I raises MemoryOutOfBounds with I as
the recorded address; I is never reduced to 12 bits (end of the file; decisions D4, D20). -/
def Obligations.IndexPastTopAlwaysRaises : Prop :=
  ∀ (s : State) (x y : Reg) (n : BitVec 4) (i : Instr), 0xFFF < s.i.toNat → n ≠ 0 →
    i ∈ [.ldB x, .storeRegs x, .loadRegs x, .drw x y n] →
    ∃ t, exec i s = .next t ∧ t.errCode = 4 ∧ t.errInfo.toNat = s.i.toNat ∧
      Raised .memoryOutOfBounds s.i.toNat s t

/-! ## Random, timers, keypad (spec/44_random_timers_keypad.md) -/

/-- RND Vx,kk: one draw, its byte ANDed with kk; with kk = 0 the result is 0 whatever the draw, and no bit
outside kk is set. Where the byte comes from is the model's convention (notes/assumptions/3.md): the
next byte of the supply when there is one, a free value otherwise. -/
def Obligations.RandomResult : Prop :=
  ∀ (x : Reg) (kk : Byte), decodeWord (0xC#4 ++ regField x ++ kk) = .ok (.rnd x kk) ∧
    ∀ s : State, ∃ t r, exec (.rnd x kk) s = .next t ∧ t.reg x = r &&& kk ∧
      (∀ b rest, s.rndSupply = b :: rest → r = b ∧ t.rndSupply = rest) ∧
      (s.rndSupply = [] → r = Config.freeRnd s.rndCount ∧ t.rndSupply = []) ∧
      t.rndCount = s.rndCount + 1 ∧
      (∀ k, kk.getLsbD k = false → (t.reg x).getLsbD k = false) ∧ KeepsRegsBut [x] s t ∧
      MovedBy 2 s t ∧ ChangesOnly [.regs, .random, .pc, .status] s t

/-- SKP Vx and SKNP Vx (R221, R222): the key of the low nibble of Vx, by its level in the snapshot. -/
def Obligations.SkipsOnKey : Prop :=
  ∀ x : Reg,
    decodeWord (0xE#4 ++ regField x ++ 0x9E#8) = .ok (.skp x) ∧
    decodeWord (0xE#4 ++ regField x ++ 0xA1#8) = .ok (.sknp x) ∧
    ∀ s : State,
      (∃ t, exec (.skp x) s = .next t ∧
        MovedBy (if s.keys.getLsbD ((s.reg x).toNat % 16) then 4 else 2) s t ∧
        ChangesOnly [.pc, .status] s t) ∧
      (∃ t, exec (.sknp x) s = .next t ∧
        MovedBy (if s.keys.getLsbD ((s.reg x).toNat % 16) then 2 else 4) s t ∧
        ChangesOnly [.pc, .status] s t)

/-- LD Vx,DT, LD DT,Vx and LD ST,Vx (R223, R225, R226); sound_active follows ST at once. -/
def Obligations.TimerMoves : Prop :=
  ∀ x : Reg,
    decodeWord (0xF#4 ++ regField x ++ 0x07#8) = .ok (.ldVxDt x) ∧
    decodeWord (0xF#4 ++ regField x ++ 0x15#8) = .ok (.ldDtVx x) ∧
    decodeWord (0xF#4 ++ regField x ++ 0x18#8) = .ok (.ldStVx x) ∧
    ∀ s : State,
      (∃ t, exec (.ldVxDt x) s = .next t ∧ t.reg x = s.dt ∧ KeepsRegsBut [x] s t ∧
        MovedBy 2 s t ∧ ChangesOnly [.regs, .pc, .status] s t) ∧
      (∃ t, exec (.ldDtVx x) s = .next t ∧ t.dt = s.reg x ∧
        MovedBy 2 s t ∧ ChangesOnly [.delay, .pc, .status] s t) ∧
      (∃ t, exec (.ldStVx x) s = .next t ∧ t.st = s.reg x ∧ t.soundActive = decide (s.reg x ≠ 0) ∧
        MovedBy 2 s t ∧ ChangesOnly [.sound, .pc, .status] s t)

/-- LD Vx,K: the first Step looks at the keys and holds; a later Step with no newly pressed key looks again
and holds; with one it completes with the lowest-numbered (decision D18). -/
def Obligations.KeyWaitHoldsThenCompletes : Prop :=
  ∀ x : Reg, decodeWord (0xF#4 ++ regField x ++ 0x0A#8) = .ok (.ldVxK x) ∧
    ∀ s : State,
      (s.kw = false ∨ (∀ k, k < 16 → s.keys.getLsbD k = true → s.keyPrev.getLsbD k = true) →
        ∃ t, exec (.ldVxK x) s = .next t ∧ t.kw = true ∧ t.keyPrev = s.keys ∧ t.status = .awaitKey ∧
          ChangesOnly [.keyWait, .status] s t) ∧
      (∀ k, k < 16 → s.kw = true → s.keys.getLsbD k = true → s.keyPrev.getLsbD k = false →
        (∀ j, j < k → s.keys.getLsbD j = true → s.keyPrev.getLsbD j = true) →
        ∃ t, exec (.ldVxK x) s = .next t ∧ (t.reg x).toNat = k ∧ t.kw = false ∧
          t.keyPrev = s.keyPrev ∧ KeepsRegsBut [x] s t ∧ MovedBy 2 s t ∧
          ChangesOnly [.regs, .keyWait, .pc, .status] s t)

/-! ## Display (spec/45_display.md) -/

/-- CLS (R241): every pixel false, never a hold, dw and VF untouched. -/
def Obligations.ClearScreenResult : Prop :=
  decodeWord 0x00E0 = .ok .cls ∧
    ∀ s : State, ∃ t, exec .cls s = .next t ∧ (∀ x y, t.pixelAt x y = false) ∧
      MovedBy 2 s t ∧ ChangesOnly [.screen, .pc, .status] s t

/-- DRW Vx,Vy,n completes when its rows are in range and it need not wait: a pixel is toggled exactly when
a 1 bit of the sprite lands on it after wrapping or clipping, VF is 1 exactly when a lit pixel went out,
and dw becomes WAIT_BLANK exactly under Q.display_wait (sections on the sprite format and DRW; decisions
D14, D19, D20). -/
def Obligations.DrawTogglesSpritePixels : Prop :=
  ∀ (x y : Reg) (n : BitVec 4),
    decodeWord (0xD#4 ++ regField x ++ regField y ++ n) = .ok (.drw x y n) ∧
    ∀ s : State, (n = 0 ∨ s.i.toNat + n.toNat ≤ 0x1000) →
      (s.cfg.quirks.displayWait = false ∨ s.dw = .idle) →
      ∃ t, exec (.drw x y n) s = .next t ∧
        (∀ (px : Fin 64) (py : Fin 32),
          (t.pixelAt px py ≠ s.pixelAt px py ↔
            ∃ r c : Nat, r < n.toNat ∧ c < 8 ∧
              (s.byteAt (s.i.toNat + r)).getLsbD (7 - c) = true ∧
              (if s.cfg.quirks.clipping then
                px.val = (s.reg x).toNat % 64 + c ∧ py.val = (s.reg y).toNat % 32 + r
              else
                px.val = ((s.reg x).toNat % 64 + c) % 64 ∧
                  py.val = ((s.reg y).toNat % 32 + r) % 32))) ∧
        ((∃ px py, s.pixelAt px py = true ∧ t.pixelAt px py = false) → t.reg vf = 1) ∧
        ((∀ px py, s.pixelAt px py = true → t.pixelAt px py = true) → t.reg vf = 0) ∧
        KeepsRegsBut [vf] s t ∧
        t.dw = (if s.cfg.quirks.displayWait then .waitBlank else s.dw) ∧
        MovedBy 2 s t ∧ ChangesOnly [.regs, .screen, .draw, .pc, .status] s t

/-- DRW raises MemoryOutOfBounds when a row lies past 0xFFF, before any wait; in range, it holds while
Q.display_wait and dw = WAIT_BLANK (decisions D19, D20). -/
def Obligations.DrawRaisesOrWaits : Prop :=
  ∀ (x y : Reg) (n : BitVec 4) (s : State),
    (n ≠ 0 → 0x1000 < s.i.toNat + n.toNat →
      ∃ t, exec (.drw x y n) s = .next t ∧
        Raised .memoryOutOfBounds (max s.i.toNat 0x1000) s t) ∧
    (n = 0 ∨ s.i.toNat + n.toNat ≤ 0x1000 →
      s.cfg.quirks.displayWait = true → s.dw = .waitBlank →
      exec (.drw x y n) s = .next { s with status := .awaitBlank })

/-- Drawing the same sprite twice at the same place, with a Tick between, restores the framebuffer (section
on DRW, corner cases). -/
def Obligations.DrawingTwiceRestoresScreen : Prop :=
  ∀ (x y : Reg) (n : BitVec 4) (s t : State),
    exec (.drw x y n) s = .next t → t.status = .ok → t.reg x = s.reg x → t.reg y = s.reg y →
    ∃ u, exec (.drw x y n) t.tick = .next u ∧ u.status = .ok ∧
      ∀ px py, u.pixelAt px py = s.pixelAt px py

/-- The display wait: while it lasts, no event but Tick and Reset ends it, and none changes a pixel but a
Step whose word is 00E0, which clears the screen; so no second draw falls in one tick interval (the
display-wait state machine; decision D19). -/
def Obligations.NoSecondDrawInTickInterval : Prop :=
  ∀ s t : State, s.cfg.quirks.displayWait = true → s.dw = .waitBlank →
    s.inputs.head? ≠ some .tick → s.inputs.head? ≠ some .reset → step s = .next t →
    t.dw = .waitBlank ∧
      ((∀ px py, t.pixelAt px py = s.pixelAt px py) ∨
        ∃ u, NextIsStep s u ∧ u.fetchWord = .ok 0x00E0 ∧ ∀ px py, t.pixelAt px py = false)
end

