-- ==== Sys2Proof/Laws/Decode.lean ====
section
/-! SUPPORT. Laws/Decode.lean: the fields of a word built from fields (spec/30_encoding.md R91, R92), a
word rebuilt from its own fields, and the bytes of a word (spec/20_memory.md R62). -/

namespace Sys2Proof

variable (a b c d : BitVec 4) (kk : Byte) (nnn : Addr) (x : Reg) (w : Word)

@[simp] theorem toFin_regField : (regField x).toFin = x := rfl

@[simp] theorem regField_toFin : regField b.toFin = b := rfl

/-! ## The fields of four nibbles -/

@[simp] theorem fieldOp_nibbles : fieldOp (nibbles a b c d) = a := by
  unfold fieldOp nibbles
  apply BitVec.eq_of_getLsbD_eq
  intro i hi
  simp only [BitVec.getLsbD_extractLsb', BitVec.getLsbD_append]
  interval_cases i <;> simp

@[simp] theorem fieldX_nibbles : fieldX (nibbles a b c d) = b.toFin := by
  unfold fieldX nibbles
  congr 1
  apply BitVec.eq_of_getLsbD_eq
  intro i hi
  simp only [BitVec.getLsbD_extractLsb', BitVec.getLsbD_append]
  interval_cases i <;> simp

@[simp] theorem fieldY_nibbles : fieldY (nibbles a b c d) = c.toFin := by
  unfold fieldY nibbles
  congr 1
  apply BitVec.eq_of_getLsbD_eq
  intro i hi
  simp only [BitVec.getLsbD_extractLsb', BitVec.getLsbD_append]
  interval_cases i <;> simp

@[simp] theorem fieldN_nibbles : fieldN (nibbles a b c d) = d := by
  unfold fieldN nibbles
  apply BitVec.eq_of_getLsbD_eq
  intro i hi
  simp only [BitVec.getLsbD_extractLsb', BitVec.getLsbD_append]
  interval_cases i <;> simp

/-! ## The fields of a major opcode, a register and a byte -/

@[simp] theorem fieldOp_opRegByte : fieldOp (opRegByte a x kk) = a := by
  unfold fieldOp opRegByte
  apply BitVec.eq_of_getLsbD_eq
  intro i hi
  simp only [BitVec.getLsbD_extractLsb', BitVec.getLsbD_append]
  interval_cases i <;> simp

@[simp] theorem fieldX_opRegByte : fieldX (opRegByte a x kk) = x := by
  rw [← toFin_regField x]
  unfold fieldX opRegByte
  congr 1
  apply BitVec.eq_of_getLsbD_eq
  intro i hi
  simp only [BitVec.getLsbD_extractLsb', BitVec.getLsbD_append]
  interval_cases i <;> simp

@[simp] theorem fieldKk_opRegByte : fieldKk (opRegByte a x kk) = kk := by
  unfold fieldKk opRegByte
  apply BitVec.eq_of_getLsbD_eq
  intro i hi
  simp only [BitVec.getLsbD_extractLsb', BitVec.getLsbD_append]
  interval_cases i <;> simp

/-! ## The fields of a major opcode and an address -/

@[simp] theorem fieldOp_opAddr : fieldOp (opAddr a nnn) = a := by
  unfold fieldOp opAddr
  apply BitVec.eq_of_getLsbD_eq
  intro i hi
  simp only [BitVec.getLsbD_extractLsb', BitVec.getLsbD_append]
  interval_cases i <;> simp

@[simp] theorem fieldNnn_opAddr : fieldNnn (opAddr a nnn) = nnn := by
  unfold fieldNnn opAddr
  apply BitVec.eq_of_getLsbD_eq
  intro i hi
  simp only [BitVec.getLsbD_extractLsb', BitVec.getLsbD_append]
  interval_cases i <;> simp

/-! ## A word is its own fields -/

theorem nibbles_fields :
    nibbles (fieldOp w) (regField (fieldX w)) (regField (fieldY w)) (fieldN w) = w := by
  show nibbles (w.extractLsb' 12 4) (w.extractLsb' 8 4) (w.extractLsb' 4 4) (w.extractLsb' 0 4) = w
  unfold nibbles
  apply BitVec.eq_of_getLsbD_eq
  intro i hi
  simp only [BitVec.getLsbD_append, BitVec.getLsbD_extractLsb']
  interval_cases i <;> simp

theorem opRegByte_fields : opRegByte (fieldOp w) (fieldX w) (fieldKk w) = w := by
  show w.extractLsb' 12 4 ++ w.extractLsb' 8 4 ++ w.extractLsb' 0 8 = w
  apply BitVec.eq_of_getLsbD_eq
  intro i hi
  simp only [BitVec.getLsbD_append, BitVec.getLsbD_extractLsb']
  interval_cases i <;> simp

theorem opAddr_fields : opAddr (fieldOp w) (fieldNnn w) = w := by
  show w.extractLsb' 12 4 ++ w.extractLsb' 0 12 = w
  apply BitVec.eq_of_getLsbD_eq
  intro i hi
  simp only [BitVec.getLsbD_append, BitVec.getLsbD_extractLsb']
  interval_cases i <;> simp

/-! ## Words and their bytes -/

@[simp] theorem wordOfBytes_bytesOfWord :
    wordOfBytes (w.extractLsb' 8 8) (w.extractLsb' 0 8) = w := by
  unfold wordOfBytes
  apply BitVec.eq_of_getLsbD_eq
  intro i hi
  simp only [BitVec.getLsbD_append, BitVec.getLsbD_extractLsb']
  interval_cases i <;> simp

/-- Decoding the bytes of a word, whatever follows them, is decoding the word. -/
theorem decode_bytesOfWord (rest : List Byte) :
    decode (bytesOfWord w ++ rest) =
      match decodeWord w with
      | .ok i => .ok (i, rest)
      | .error e => .error e := by
  show (match decodeWord (wordOfBytes (w.extractLsb' 8 8) (w.extractLsb' 0 8)) with
    | .ok i => Except.ok (i, rest)
    | .error e => .error e) = _
  rw [wordOfBytes_bytesOfWord]

/-! ## The opcode map -/

/-- No two rows of the opcode map share a word (spec/30_encoding.md R95): two rows differ in a bit both
fix. -/
theorem opTable_disjoint :
    opTable.Pairwise fun r q => r.pattern &&& (r.mask &&& q.mask) ≠ q.pattern &&& (r.mask &&& q.mask) := by
  decide

/-- Every row's match lies inside its mask. -/
theorem opTable_patterns : ∀ r ∈ opTable, r.pattern &&& ~~~r.mask = 0 := by decide

/-- An instruction's row is one of the table's. -/
theorem opRow_mem_opTable (i : Instr) : i.opRow ∈ opTable := by
  cases i <;> simp [opTable, Instr.opRow]

end Sys2Proof
end

