-- ==== Sys2Proof/Laws/Memory.lean ====
section
/-! SUPPORT. Laws/Memory.lean: the laws of memory: what a read sees after a write, and that every memory
operation keeps the canonical form (spec/20_memory.md R66, R68). -/

namespace Sys2Proof.Machine

variable (c : Config)

/-! ## The canonical form -/

theorem Memory.wfFrom_mono {lo lo' : Nat} (h : lo' ≤ lo) :
    ∀ {m : Memory}, Memory.wfFrom c lo m = true → Memory.wfFrom c lo' m = true
  | [], _ => rfl
  | (k, b) :: rest, hm => by
    simp only [Memory.wfFrom, Bool.and_eq_true, decide_eq_true_eq] at hm ⊢
    exact ⟨⟨⟨by omega, hm.1.1.2⟩, hm.1.2⟩, hm.2⟩

/-- In a canonical tail every listed address is at least the bound, so a smaller one is not listed. -/
theorem Memory.lookup_lt {lo a : Nat} (h : a < lo) :
    ∀ {m : Memory}, Memory.wfFrom c lo m = true → Memory.lookup a m = none
  | [], _ => rfl
  | (k, b) :: rest, hm => by
    simp only [Memory.wfFrom, Bool.and_eq_true, decide_eq_true_eq] at hm
    simp only [Memory.lookup]
    rw [if_neg (by omega)]
    exact Memory.lookup_lt (lo := k + 1) (by omega) hm.2

/-- One write keeps the canonical form, at an address inside the space. -/
theorem Memory.wfFrom_write {lo a : Nat} (ha : lo ≤ a) (h4 : a < 4096) (b : Byte) :
    ∀ {m : Memory}, Memory.wfFrom c lo m = true → Memory.wfFrom c lo (Memory.write c a b m) = true
  | [], _ => by
    by_cases hb : b = resetByte c a <;> simp [Memory.write, hb, Memory.wfFrom, ha, h4]
  | (k, e) :: rest, hm => by
    have hm' := hm
    simp only [Memory.wfFrom, Bool.and_eq_true, decide_eq_true_eq] at hm
    unfold Memory.write
    split
    · split
      · exact hm'
      · simp only [Memory.wfFrom, Bool.and_eq_true, decide_eq_true_eq]
        exact ⟨⟨⟨ha, h4⟩, by assumption⟩, ⟨⟨by omega, hm.1.1.2⟩, hm.1.2⟩, hm.2⟩
    · split
      · subst_vars
        split
        · exact Memory.wfFrom_mono c (by omega) hm.2
        · simp only [Memory.wfFrom, Bool.and_eq_true, decide_eq_true_eq]
          exact ⟨⟨⟨ha, h4⟩, by assumption⟩, hm.2⟩
      · simp only [Memory.wfFrom, Bool.and_eq_true, decide_eq_true_eq]
        exact ⟨hm.1, Memory.wfFrom_write (by omega) h4 b hm.2⟩

theorem Memory.wf_write {a : Nat} (h4 : a < 4096) (b : Byte) {m : Memory} (hm : Memory.wf c m = true) :
    Memory.wf c (Memory.write c a b m) = true :=
  Memory.wfFrom_write c (Nat.zero_le _) h4 b hm

theorem Memory.wf_writeBytes : ∀ (bs : List Byte) {a : Nat}, a + bs.length ≤ 4096 → ∀ {m : Memory},
    Memory.wf c m = true → Memory.wf c (Memory.writeBytes c a bs m) = true
  | [], _, _, _, hm => hm
  | b :: bs, a, h, _, hm => by
    simp only [List.length_cons] at h
    exact Memory.wf_write c (by omega) b (Memory.wf_writeBytes bs (by omega) hm)

/-! ## Reads after writes -/

theorem Memory.lookup_write_other {a a' : Nat} (h : a' ≠ a) (b : Byte) :
    ∀ m : Memory, Memory.lookup a' (Memory.write c a b m) = Memory.lookup a' m
  | [] => by unfold Memory.write; split <;> simp [Memory.lookup, h]
  | (k, e) :: rest => by
    unfold Memory.write
    split
    · split <;> simp [Memory.lookup, h]
    · split
      · subst_vars
        split <;> simp [Memory.lookup, h]
      · simp only [Memory.lookup, Memory.lookup_write_other h b rest]

theorem Memory.read_write_other {a a' : Nat} (h : a' ≠ a) (b : Byte) (m : Memory) :
    Memory.read c (Memory.write c a b m) a' = Memory.read c m a' := by
  simp [Memory.read, Memory.lookup_write_other c h]

theorem Memory.read_write_same_from {lo a : Nat} (b : Byte) :
    ∀ {m : Memory}, Memory.wfFrom c lo m = true →
      (Memory.lookup a (Memory.write c a b m)).getD (resetByte c a) = b
  | [], _ => by unfold Memory.write; split <;> simp_all [Memory.lookup]
  | (k, e) :: rest, hm => by
    simp only [Memory.wfFrom, Bool.and_eq_true, decide_eq_true_eq] at hm
    unfold Memory.write
    split
    · rename_i hak
      split
      · rename_i hb
        simp only [Memory.lookup]
        rw [if_neg (by omega), Memory.lookup_lt c (lo := k + 1) (by omega) hm.2]
        simp [hb]
      · simp [Memory.lookup]
    · split
      · subst_vars
        split
        · rename_i hb
          rw [Memory.lookup_lt c (Nat.lt_succ_self _) hm.2]
          simp [hb]
        · simp [Memory.lookup]
      · rename_i hak
        simp only [Memory.lookup]
        rw [if_neg hak]
        exact Memory.read_write_same_from b hm.2

theorem Memory.read_write_same {a : Nat} (b : Byte) {m : Memory} (hm : Memory.wf c m = true) :
    Memory.read c (Memory.write c a b m) a = b :=
  Memory.read_write_same_from c b hm

/-- Outside the bytes written, memory reads as before. -/
theorem Memory.read_writeBytes_outside : ∀ (bs : List Byte) {a x : Nat} (m : Memory),
    ¬(a ≤ x ∧ x < a + bs.length) →
      Memory.read c (Memory.writeBytes c a bs m) x = Memory.read c m x
  | [], _, _, _, _ => rfl
  | b :: bs, a, x, m, h => by
    simp only [List.length_cons] at h
    rw [Memory.writeBytes, Memory.read_write_other c (by omega),
      Memory.read_writeBytes_outside bs m (by omega)]

/-- Each byte written reads back. -/
theorem Memory.read_writeBytes_inside : ∀ (bs : List Byte) {a k : Nat} {m : Memory},
    Memory.wf c m = true → a + bs.length ≤ 4096 → ∀ h : k < bs.length,
      Memory.read c (Memory.writeBytes c a bs m) (a + k) = bs[k]
  | b :: bs, a, 0, m, hm, h4, _ => by
    simp only [List.length_cons] at h4
    exact Memory.read_write_same c b (Memory.wf_writeBytes c bs (by omega) hm)
  | b :: bs, a, k + 1, m, hm, h4, h => by
    simp only [List.length_cons] at h4 h
    rw [Memory.writeBytes, Memory.read_write_other c (by omega)]
    have := Memory.read_writeBytes_inside bs (a := a + 1) (k := k) (m := m) hm (by omega) (by omega)
    rw [show a + (k + 1) = a + 1 + k by omega, this]
    rfl

/-! ## The reset contents (spec/10_state.md R40, spec/20_memory.md R73) -/

theorem resetByte_glyph (g : Fin 16) (r : Fin 5) :
    resetByte c (c.fontBase.val + 5 * g.val + r.val) = (c.font[g])[r] := by
  have := g.isLt
  have := r.isLt
  have e1 : (c.fontBase.val + 5 * g.val + r.val - c.fontBase.val) / 5 = g.val := by omega
  have e2 : (c.fontBase.val + 5 * g.val + r.val - c.fontBase.val) % 5 = r.val := by omega
  unfold resetByte
  rw [dif_pos (by omega)]
  simp [e1, e2]

theorem resetByte_outside {a : Nat} (h : ¬(c.fontBase.val ≤ a ∧ a < c.fontBase.val + 80)) :
    resetByte c a = 0 := by
  unfold resetByte
  rw [dif_neg h]

theorem State.byteAt_of_mem_nil (s : State) (h : s.mem = []) (a : Nat) :
    s.byteAt a = resetByte s.cfg a := by
  simp [State.byteAt, Memory.read, h, Memory.lookup]

/-! ## The state's own reads and stores -/

theorem State.byteAt_storeBytes_outside (s : State) {a x : Nat} {bs : List Byte}
    (h : ¬(a ≤ x ∧ x < a + bs.length)) : (s.storeBytes a bs).byteAt x = s.byteAt x :=
  Memory.read_writeBytes_outside s.cfg bs s.mem h

theorem State.byteAt_storeBytes_inside (s : State) {a k : Nat} {bs : List Byte}
    (hm : Memory.wf s.cfg s.mem = true) (h4 : a + bs.length ≤ 4096) (h : k < bs.length) :
    (s.storeBytes a bs).byteAt (a + k) = bs[k] :=
  Memory.read_writeBytes_inside s.cfg bs hm h4 h

theorem State.wf_storeBytes (s : State) {a : Nat} {bs : List Byte}
    (hm : Memory.wf s.cfg s.mem = true) (h4 : a + bs.length ≤ 4096) :
    Memory.wf (s.storeBytes a bs).cfg (s.storeBytes a bs).mem = true :=
  Memory.wf_writeBytes s.cfg bs h4 hm

end Sys2Proof.Machine
end

