-- ==== Sys2Proof/Laws/State.lean ====
section
/-! SUPPORT. Laws/State.lean: what each named update of the state leaves in each field, one lemma per field
and update, so that no proof unfolds a record update. -/

namespace Sys2Proof.Machine

variable (s : State)

/-! ## `storeBytes` -/

@[simp] theorem State.storeBytes_cfg (a : Nat) (bs : List Byte) : (s.storeBytes a bs).cfg = s.cfg := rfl
@[simp] theorem State.storeBytes_v (a : Nat) (bs : List Byte) : (s.storeBytes a bs).v = s.v := rfl
@[simp] theorem State.storeBytes_i (a : Nat) (bs : List Byte) : (s.storeBytes a bs).i = s.i := rfl
@[simp] theorem State.storeBytes_pc (a : Nat) (bs : List Byte) : (s.storeBytes a bs).pc = s.pc := rfl
@[simp] theorem State.storeBytes_stack (a : Nat) (bs : List Byte) : (s.storeBytes a bs).stack = s.stack := rfl
@[simp] theorem State.storeBytes_sp (a : Nat) (bs : List Byte) : (s.storeBytes a bs).sp = s.sp := rfl
@[simp] theorem State.storeBytes_dt (a : Nat) (bs : List Byte) : (s.storeBytes a bs).dt = s.dt := rfl
@[simp] theorem State.storeBytes_st (a : Nat) (bs : List Byte) : (s.storeBytes a bs).st = s.st := rfl
@[simp] theorem State.storeBytes_mem (a : Nat) (bs : List Byte) : (s.storeBytes a bs).mem = Memory.writeBytes s.cfg a bs s.mem := rfl
@[simp] theorem State.storeBytes_fb (a : Nat) (bs : List Byte) : (s.storeBytes a bs).fb = s.fb := rfl
@[simp] theorem State.storeBytes_keys (a : Nat) (bs : List Byte) : (s.storeBytes a bs).keys = s.keys := rfl
@[simp] theorem State.storeBytes_dw (a : Nat) (bs : List Byte) : (s.storeBytes a bs).dw = s.dw := rfl
@[simp] theorem State.storeBytes_kw (a : Nat) (bs : List Byte) : (s.storeBytes a bs).kw = s.kw := rfl
@[simp] theorem State.storeBytes_keyPrev (a : Nat) (bs : List Byte) : (s.storeBytes a bs).keyPrev = s.keyPrev := rfl
@[simp] theorem State.storeBytes_err (a : Nat) (bs : List Byte) : (s.storeBytes a bs).err = s.err := rfl
@[simp] theorem State.storeBytes_errInfo (a : Nat) (bs : List Byte) : (s.storeBytes a bs).errInfo = s.errInfo := rfl
@[simp] theorem State.storeBytes_status (a : Nat) (bs : List Byte) : (s.storeBytes a bs).status = s.status := rfl
@[simp] theorem State.storeBytes_loadError (a : Nat) (bs : List Byte) : (s.storeBytes a bs).loadError = s.loadError := rfl
@[simp] theorem State.storeBytes_inputs (a : Nat) (bs : List Byte) : (s.storeBytes a bs).inputs = s.inputs := rfl
@[simp] theorem State.storeBytes_rndSupply (a : Nat) (bs : List Byte) : (s.storeBytes a bs).rndSupply = s.rndSupply := rfl
@[simp] theorem State.storeBytes_rndCount (a : Nat) (bs : List Byte) : (s.storeBytes a bs).rndCount = s.rndCount := rfl

/-! ## `setReg` -/

@[simp] theorem State.setReg_cfg (x : Reg) (b : Byte) : (s.setReg x b).cfg = s.cfg := rfl
@[simp] theorem State.setReg_v (x : Reg) (b : Byte) : (s.setReg x b).v = s.v.set x b := rfl
@[simp] theorem State.setReg_i (x : Reg) (b : Byte) : (s.setReg x b).i = s.i := rfl
@[simp] theorem State.setReg_pc (x : Reg) (b : Byte) : (s.setReg x b).pc = s.pc := rfl
@[simp] theorem State.setReg_stack (x : Reg) (b : Byte) : (s.setReg x b).stack = s.stack := rfl
@[simp] theorem State.setReg_sp (x : Reg) (b : Byte) : (s.setReg x b).sp = s.sp := rfl
@[simp] theorem State.setReg_dt (x : Reg) (b : Byte) : (s.setReg x b).dt = s.dt := rfl
@[simp] theorem State.setReg_st (x : Reg) (b : Byte) : (s.setReg x b).st = s.st := rfl
@[simp] theorem State.setReg_mem (x : Reg) (b : Byte) : (s.setReg x b).mem = s.mem := rfl
@[simp] theorem State.setReg_fb (x : Reg) (b : Byte) : (s.setReg x b).fb = s.fb := rfl
@[simp] theorem State.setReg_keys (x : Reg) (b : Byte) : (s.setReg x b).keys = s.keys := rfl
@[simp] theorem State.setReg_dw (x : Reg) (b : Byte) : (s.setReg x b).dw = s.dw := rfl
@[simp] theorem State.setReg_kw (x : Reg) (b : Byte) : (s.setReg x b).kw = s.kw := rfl
@[simp] theorem State.setReg_keyPrev (x : Reg) (b : Byte) : (s.setReg x b).keyPrev = s.keyPrev := rfl
@[simp] theorem State.setReg_err (x : Reg) (b : Byte) : (s.setReg x b).err = s.err := rfl
@[simp] theorem State.setReg_errInfo (x : Reg) (b : Byte) : (s.setReg x b).errInfo = s.errInfo := rfl
@[simp] theorem State.setReg_status (x : Reg) (b : Byte) : (s.setReg x b).status = s.status := rfl
@[simp] theorem State.setReg_loadError (x : Reg) (b : Byte) : (s.setReg x b).loadError = s.loadError := rfl
@[simp] theorem State.setReg_inputs (x : Reg) (b : Byte) : (s.setReg x b).inputs = s.inputs := rfl
@[simp] theorem State.setReg_rndSupply (x : Reg) (b : Byte) : (s.setReg x b).rndSupply = s.rndSupply := rfl
@[simp] theorem State.setReg_rndCount (x : Reg) (b : Byte) : (s.setReg x b).rndCount = s.rndCount := rfl

/-! ## `setRegs` -/

@[simp] theorem State.setRegs_cfg (bs : List Byte) : (s.setRegs bs).cfg = s.cfg := rfl
@[simp] theorem State.setRegs_i (bs : List Byte) : (s.setRegs bs).i = s.i := rfl
@[simp] theorem State.setRegs_pc (bs : List Byte) : (s.setRegs bs).pc = s.pc := rfl
@[simp] theorem State.setRegs_stack (bs : List Byte) : (s.setRegs bs).stack = s.stack := rfl
@[simp] theorem State.setRegs_sp (bs : List Byte) : (s.setRegs bs).sp = s.sp := rfl
@[simp] theorem State.setRegs_dt (bs : List Byte) : (s.setRegs bs).dt = s.dt := rfl
@[simp] theorem State.setRegs_st (bs : List Byte) : (s.setRegs bs).st = s.st := rfl
@[simp] theorem State.setRegs_mem (bs : List Byte) : (s.setRegs bs).mem = s.mem := rfl
@[simp] theorem State.setRegs_fb (bs : List Byte) : (s.setRegs bs).fb = s.fb := rfl
@[simp] theorem State.setRegs_keys (bs : List Byte) : (s.setRegs bs).keys = s.keys := rfl
@[simp] theorem State.setRegs_dw (bs : List Byte) : (s.setRegs bs).dw = s.dw := rfl
@[simp] theorem State.setRegs_kw (bs : List Byte) : (s.setRegs bs).kw = s.kw := rfl
@[simp] theorem State.setRegs_keyPrev (bs : List Byte) : (s.setRegs bs).keyPrev = s.keyPrev := rfl
@[simp] theorem State.setRegs_err (bs : List Byte) : (s.setRegs bs).err = s.err := rfl
@[simp] theorem State.setRegs_errInfo (bs : List Byte) : (s.setRegs bs).errInfo = s.errInfo := rfl
@[simp] theorem State.setRegs_status (bs : List Byte) : (s.setRegs bs).status = s.status := rfl
@[simp] theorem State.setRegs_loadError (bs : List Byte) : (s.setRegs bs).loadError = s.loadError := rfl
@[simp] theorem State.setRegs_inputs (bs : List Byte) : (s.setRegs bs).inputs = s.inputs := rfl
@[simp] theorem State.setRegs_rndSupply (bs : List Byte) : (s.setRegs bs).rndSupply = s.rndSupply := rfl
@[simp] theorem State.setRegs_rndCount (bs : List Byte) : (s.setRegs bs).rndCount = s.rndCount := rfl

/-! ## `setIndex` -/

@[simp] theorem State.setIndex_cfg (a : BitVec 16) : (s.setIndex a).cfg = s.cfg := rfl
@[simp] theorem State.setIndex_v (a : BitVec 16) : (s.setIndex a).v = s.v := rfl
@[simp] theorem State.setIndex_i (a : BitVec 16) : (s.setIndex a).i = a := rfl
@[simp] theorem State.setIndex_pc (a : BitVec 16) : (s.setIndex a).pc = s.pc := rfl
@[simp] theorem State.setIndex_stack (a : BitVec 16) : (s.setIndex a).stack = s.stack := rfl
@[simp] theorem State.setIndex_sp (a : BitVec 16) : (s.setIndex a).sp = s.sp := rfl
@[simp] theorem State.setIndex_dt (a : BitVec 16) : (s.setIndex a).dt = s.dt := rfl
@[simp] theorem State.setIndex_st (a : BitVec 16) : (s.setIndex a).st = s.st := rfl
@[simp] theorem State.setIndex_mem (a : BitVec 16) : (s.setIndex a).mem = s.mem := rfl
@[simp] theorem State.setIndex_fb (a : BitVec 16) : (s.setIndex a).fb = s.fb := rfl
@[simp] theorem State.setIndex_keys (a : BitVec 16) : (s.setIndex a).keys = s.keys := rfl
@[simp] theorem State.setIndex_dw (a : BitVec 16) : (s.setIndex a).dw = s.dw := rfl
@[simp] theorem State.setIndex_kw (a : BitVec 16) : (s.setIndex a).kw = s.kw := rfl
@[simp] theorem State.setIndex_keyPrev (a : BitVec 16) : (s.setIndex a).keyPrev = s.keyPrev := rfl
@[simp] theorem State.setIndex_err (a : BitVec 16) : (s.setIndex a).err = s.err := rfl
@[simp] theorem State.setIndex_errInfo (a : BitVec 16) : (s.setIndex a).errInfo = s.errInfo := rfl
@[simp] theorem State.setIndex_status (a : BitVec 16) : (s.setIndex a).status = s.status := rfl
@[simp] theorem State.setIndex_loadError (a : BitVec 16) : (s.setIndex a).loadError = s.loadError := rfl
@[simp] theorem State.setIndex_inputs (a : BitVec 16) : (s.setIndex a).inputs = s.inputs := rfl
@[simp] theorem State.setIndex_rndSupply (a : BitVec 16) : (s.setIndex a).rndSupply = s.rndSupply := rfl
@[simp] theorem State.setIndex_rndCount (a : BitVec 16) : (s.setIndex a).rndCount = s.rndCount := rfl

/-! ## `finish` -/

@[simp] theorem State.finish_cfg (a : Addr) : (s.finish a).cfg = s.cfg := rfl
@[simp] theorem State.finish_v (a : Addr) : (s.finish a).v = s.v := rfl
@[simp] theorem State.finish_i (a : Addr) : (s.finish a).i = s.i := rfl
@[simp] theorem State.finish_pc (a : Addr) : (s.finish a).pc = a := rfl
@[simp] theorem State.finish_stack (a : Addr) : (s.finish a).stack = s.stack := rfl
@[simp] theorem State.finish_sp (a : Addr) : (s.finish a).sp = s.sp := rfl
@[simp] theorem State.finish_dt (a : Addr) : (s.finish a).dt = s.dt := rfl
@[simp] theorem State.finish_st (a : Addr) : (s.finish a).st = s.st := rfl
@[simp] theorem State.finish_mem (a : Addr) : (s.finish a).mem = s.mem := rfl
@[simp] theorem State.finish_fb (a : Addr) : (s.finish a).fb = s.fb := rfl
@[simp] theorem State.finish_keys (a : Addr) : (s.finish a).keys = s.keys := rfl
@[simp] theorem State.finish_dw (a : Addr) : (s.finish a).dw = s.dw := rfl
@[simp] theorem State.finish_kw (a : Addr) : (s.finish a).kw = s.kw := rfl
@[simp] theorem State.finish_keyPrev (a : Addr) : (s.finish a).keyPrev = s.keyPrev := rfl
@[simp] theorem State.finish_err (a : Addr) : (s.finish a).err = s.err := rfl
@[simp] theorem State.finish_errInfo (a : Addr) : (s.finish a).errInfo = s.errInfo := rfl
@[simp] theorem State.finish_status (a : Addr) : (s.finish a).status = .ok := rfl
@[simp] theorem State.finish_loadError (a : Addr) : (s.finish a).loadError = s.loadError := rfl
@[simp] theorem State.finish_inputs (a : Addr) : (s.finish a).inputs = s.inputs := rfl
@[simp] theorem State.finish_rndSupply (a : Addr) : (s.finish a).rndSupply = s.rndSupply := rfl
@[simp] theorem State.finish_rndCount (a : Addr) : (s.finish a).rndCount = s.rndCount := rfl

/-! ## `complete` -/

@[simp] theorem State.complete_cfg : (s.complete).cfg = s.cfg := rfl
@[simp] theorem State.complete_v : (s.complete).v = s.v := rfl
@[simp] theorem State.complete_i : (s.complete).i = s.i := rfl
@[simp] theorem State.complete_pc : (s.complete).pc = s.npc := rfl
@[simp] theorem State.complete_stack : (s.complete).stack = s.stack := rfl
@[simp] theorem State.complete_sp : (s.complete).sp = s.sp := rfl
@[simp] theorem State.complete_dt : (s.complete).dt = s.dt := rfl
@[simp] theorem State.complete_st : (s.complete).st = s.st := rfl
@[simp] theorem State.complete_mem : (s.complete).mem = s.mem := rfl
@[simp] theorem State.complete_fb : (s.complete).fb = s.fb := rfl
@[simp] theorem State.complete_keys : (s.complete).keys = s.keys := rfl
@[simp] theorem State.complete_dw : (s.complete).dw = s.dw := rfl
@[simp] theorem State.complete_kw : (s.complete).kw = s.kw := rfl
@[simp] theorem State.complete_keyPrev : (s.complete).keyPrev = s.keyPrev := rfl
@[simp] theorem State.complete_err : (s.complete).err = s.err := rfl
@[simp] theorem State.complete_errInfo : (s.complete).errInfo = s.errInfo := rfl
@[simp] theorem State.complete_status : (s.complete).status = .ok := rfl
@[simp] theorem State.complete_loadError : (s.complete).loadError = s.loadError := rfl
@[simp] theorem State.complete_inputs : (s.complete).inputs = s.inputs := rfl
@[simp] theorem State.complete_rndSupply : (s.complete).rndSupply = s.rndSupply := rfl
@[simp] theorem State.complete_rndCount : (s.complete).rndCount = s.rndCount := rfl

/-! ## `skipIf` -/

@[simp] theorem State.skipIf_cfg (c : Bool) : (s.skipIf c).cfg = s.cfg := rfl
@[simp] theorem State.skipIf_v (c : Bool) : (s.skipIf c).v = s.v := rfl
@[simp] theorem State.skipIf_i (c : Bool) : (s.skipIf c).i = s.i := rfl
@[simp] theorem State.skipIf_pc (c : Bool) : (s.skipIf c).pc = if c then s.skipPc else s.npc := rfl
@[simp] theorem State.skipIf_stack (c : Bool) : (s.skipIf c).stack = s.stack := rfl
@[simp] theorem State.skipIf_sp (c : Bool) : (s.skipIf c).sp = s.sp := rfl
@[simp] theorem State.skipIf_dt (c : Bool) : (s.skipIf c).dt = s.dt := rfl
@[simp] theorem State.skipIf_st (c : Bool) : (s.skipIf c).st = s.st := rfl
@[simp] theorem State.skipIf_mem (c : Bool) : (s.skipIf c).mem = s.mem := rfl
@[simp] theorem State.skipIf_fb (c : Bool) : (s.skipIf c).fb = s.fb := rfl
@[simp] theorem State.skipIf_keys (c : Bool) : (s.skipIf c).keys = s.keys := rfl
@[simp] theorem State.skipIf_dw (c : Bool) : (s.skipIf c).dw = s.dw := rfl
@[simp] theorem State.skipIf_kw (c : Bool) : (s.skipIf c).kw = s.kw := rfl
@[simp] theorem State.skipIf_keyPrev (c : Bool) : (s.skipIf c).keyPrev = s.keyPrev := rfl
@[simp] theorem State.skipIf_err (c : Bool) : (s.skipIf c).err = s.err := rfl
@[simp] theorem State.skipIf_errInfo (c : Bool) : (s.skipIf c).errInfo = s.errInfo := rfl
@[simp] theorem State.skipIf_status (c : Bool) : (s.skipIf c).status = .ok := rfl
@[simp] theorem State.skipIf_loadError (c : Bool) : (s.skipIf c).loadError = s.loadError := rfl
@[simp] theorem State.skipIf_inputs (c : Bool) : (s.skipIf c).inputs = s.inputs := rfl
@[simp] theorem State.skipIf_rndSupply (c : Bool) : (s.skipIf c).rndSupply = s.rndSupply := rfl
@[simp] theorem State.skipIf_rndCount (c : Bool) : (s.skipIf c).rndCount = s.rndCount := rfl

/-! ## `hold` -/

@[simp] theorem State.hold_cfg (w : Status) : (s.hold w).cfg = s.cfg := rfl
@[simp] theorem State.hold_v (w : Status) : (s.hold w).v = s.v := rfl
@[simp] theorem State.hold_i (w : Status) : (s.hold w).i = s.i := rfl
@[simp] theorem State.hold_pc (w : Status) : (s.hold w).pc = s.pc := rfl
@[simp] theorem State.hold_stack (w : Status) : (s.hold w).stack = s.stack := rfl
@[simp] theorem State.hold_sp (w : Status) : (s.hold w).sp = s.sp := rfl
@[simp] theorem State.hold_dt (w : Status) : (s.hold w).dt = s.dt := rfl
@[simp] theorem State.hold_st (w : Status) : (s.hold w).st = s.st := rfl
@[simp] theorem State.hold_mem (w : Status) : (s.hold w).mem = s.mem := rfl
@[simp] theorem State.hold_fb (w : Status) : (s.hold w).fb = s.fb := rfl
@[simp] theorem State.hold_keys (w : Status) : (s.hold w).keys = s.keys := rfl
@[simp] theorem State.hold_dw (w : Status) : (s.hold w).dw = s.dw := rfl
@[simp] theorem State.hold_kw (w : Status) : (s.hold w).kw = s.kw := rfl
@[simp] theorem State.hold_keyPrev (w : Status) : (s.hold w).keyPrev = s.keyPrev := rfl
@[simp] theorem State.hold_err (w : Status) : (s.hold w).err = s.err := rfl
@[simp] theorem State.hold_errInfo (w : Status) : (s.hold w).errInfo = s.errInfo := rfl
@[simp] theorem State.hold_status (w : Status) : (s.hold w).status = w := rfl
@[simp] theorem State.hold_loadError (w : Status) : (s.hold w).loadError = s.loadError := rfl
@[simp] theorem State.hold_inputs (w : Status) : (s.hold w).inputs = s.inputs := rfl
@[simp] theorem State.hold_rndSupply (w : Status) : (s.hold w).rndSupply = s.rndSupply := rfl
@[simp] theorem State.hold_rndCount (w : Status) : (s.hold w).rndCount = s.rndCount := rfl

/-! ## `raise` -/

@[simp] theorem State.raise_cfg (k : ErrorKind) (n : Nat) : (s.raise k n).cfg = s.cfg := rfl
@[simp] theorem State.raise_v (k : ErrorKind) (n : Nat) : (s.raise k n).v = s.v := rfl
@[simp] theorem State.raise_i (k : ErrorKind) (n : Nat) : (s.raise k n).i = s.i := rfl
@[simp] theorem State.raise_pc (k : ErrorKind) (n : Nat) : (s.raise k n).pc = s.pc := rfl
@[simp] theorem State.raise_stack (k : ErrorKind) (n : Nat) : (s.raise k n).stack = s.stack := rfl
@[simp] theorem State.raise_sp (k : ErrorKind) (n : Nat) : (s.raise k n).sp = s.sp := rfl
@[simp] theorem State.raise_dt (k : ErrorKind) (n : Nat) : (s.raise k n).dt = s.dt := rfl
@[simp] theorem State.raise_st (k : ErrorKind) (n : Nat) : (s.raise k n).st = s.st := rfl
@[simp] theorem State.raise_mem (k : ErrorKind) (n : Nat) : (s.raise k n).mem = s.mem := rfl
@[simp] theorem State.raise_fb (k : ErrorKind) (n : Nat) : (s.raise k n).fb = s.fb := rfl
@[simp] theorem State.raise_keys (k : ErrorKind) (n : Nat) : (s.raise k n).keys = s.keys := rfl
@[simp] theorem State.raise_dw (k : ErrorKind) (n : Nat) : (s.raise k n).dw = s.dw := rfl
@[simp] theorem State.raise_kw (k : ErrorKind) (n : Nat) : (s.raise k n).kw = s.kw := rfl
@[simp] theorem State.raise_keyPrev (k : ErrorKind) (n : Nat) : (s.raise k n).keyPrev = s.keyPrev := rfl
@[simp] theorem State.raise_err (k : ErrorKind) (n : Nat) : (s.raise k n).err = some k := rfl
@[simp] theorem State.raise_errInfo (k : ErrorKind) (n : Nat) : (s.raise k n).errInfo = BitVec.ofNat 17 n := rfl
@[simp] theorem State.raise_status (k : ErrorKind) (n : Nat) : (s.raise k n).status = .error := rfl
@[simp] theorem State.raise_loadError (k : ErrorKind) (n : Nat) : (s.raise k n).loadError = s.loadError := rfl
@[simp] theorem State.raise_inputs (k : ErrorKind) (n : Nat) : (s.raise k n).inputs = s.inputs := rfl
@[simp] theorem State.raise_rndSupply (k : ErrorKind) (n : Nat) : (s.raise k n).rndSupply = s.rndSupply := rfl
@[simp] theorem State.raise_rndCount (k : ErrorKind) (n : Nat) : (s.raise k n).rndCount = s.rndCount := rfl

/-! ## `rndAdvance` -/

@[simp] theorem State.rndAdvance_cfg : (s.rndAdvance).cfg = s.cfg := rfl
@[simp] theorem State.rndAdvance_v : (s.rndAdvance).v = s.v := rfl
@[simp] theorem State.rndAdvance_i : (s.rndAdvance).i = s.i := rfl
@[simp] theorem State.rndAdvance_pc : (s.rndAdvance).pc = s.pc := rfl
@[simp] theorem State.rndAdvance_stack : (s.rndAdvance).stack = s.stack := rfl
@[simp] theorem State.rndAdvance_sp : (s.rndAdvance).sp = s.sp := rfl
@[simp] theorem State.rndAdvance_dt : (s.rndAdvance).dt = s.dt := rfl
@[simp] theorem State.rndAdvance_st : (s.rndAdvance).st = s.st := rfl
@[simp] theorem State.rndAdvance_mem : (s.rndAdvance).mem = s.mem := rfl
@[simp] theorem State.rndAdvance_fb : (s.rndAdvance).fb = s.fb := rfl
@[simp] theorem State.rndAdvance_keys : (s.rndAdvance).keys = s.keys := rfl
@[simp] theorem State.rndAdvance_dw : (s.rndAdvance).dw = s.dw := rfl
@[simp] theorem State.rndAdvance_kw : (s.rndAdvance).kw = s.kw := rfl
@[simp] theorem State.rndAdvance_keyPrev : (s.rndAdvance).keyPrev = s.keyPrev := rfl
@[simp] theorem State.rndAdvance_err : (s.rndAdvance).err = s.err := rfl
@[simp] theorem State.rndAdvance_errInfo : (s.rndAdvance).errInfo = s.errInfo := rfl
@[simp] theorem State.rndAdvance_status : (s.rndAdvance).status = s.status := rfl
@[simp] theorem State.rndAdvance_loadError : (s.rndAdvance).loadError = s.loadError := rfl
@[simp] theorem State.rndAdvance_inputs : (s.rndAdvance).inputs = s.inputs := rfl
@[simp] theorem State.rndAdvance_rndSupply : (s.rndAdvance).rndSupply = s.rndSupply.tail := rfl
@[simp] theorem State.rndAdvance_rndCount : (s.rndAdvance).rndCount = s.rndCount + 1 := rfl

/-! ## `setResult` -/

@[simp] theorem State.setResult_cfg (x : Reg) (r f : Byte) : (s.setResult x r f).cfg = s.cfg := rfl
@[simp] theorem State.setResult_v (x : Reg) (r f : Byte) : (s.setResult x r f).v = (s.v.set x r).set vf f := rfl
@[simp] theorem State.setResult_i (x : Reg) (r f : Byte) : (s.setResult x r f).i = s.i := rfl
@[simp] theorem State.setResult_pc (x : Reg) (r f : Byte) : (s.setResult x r f).pc = s.pc := rfl
@[simp] theorem State.setResult_stack (x : Reg) (r f : Byte) : (s.setResult x r f).stack = s.stack := rfl
@[simp] theorem State.setResult_sp (x : Reg) (r f : Byte) : (s.setResult x r f).sp = s.sp := rfl
@[simp] theorem State.setResult_dt (x : Reg) (r f : Byte) : (s.setResult x r f).dt = s.dt := rfl
@[simp] theorem State.setResult_st (x : Reg) (r f : Byte) : (s.setResult x r f).st = s.st := rfl
@[simp] theorem State.setResult_mem (x : Reg) (r f : Byte) : (s.setResult x r f).mem = s.mem := rfl
@[simp] theorem State.setResult_fb (x : Reg) (r f : Byte) : (s.setResult x r f).fb = s.fb := rfl
@[simp] theorem State.setResult_keys (x : Reg) (r f : Byte) : (s.setResult x r f).keys = s.keys := rfl
@[simp] theorem State.setResult_dw (x : Reg) (r f : Byte) : (s.setResult x r f).dw = s.dw := rfl
@[simp] theorem State.setResult_kw (x : Reg) (r f : Byte) : (s.setResult x r f).kw = s.kw := rfl
@[simp] theorem State.setResult_keyPrev (x : Reg) (r f : Byte) : (s.setResult x r f).keyPrev = s.keyPrev := rfl
@[simp] theorem State.setResult_err (x : Reg) (r f : Byte) : (s.setResult x r f).err = s.err := rfl
@[simp] theorem State.setResult_errInfo (x : Reg) (r f : Byte) : (s.setResult x r f).errInfo = s.errInfo := rfl
@[simp] theorem State.setResult_status (x : Reg) (r f : Byte) : (s.setResult x r f).status = s.status := rfl
@[simp] theorem State.setResult_loadError (x : Reg) (r f : Byte) : (s.setResult x r f).loadError = s.loadError := rfl
@[simp] theorem State.setResult_inputs (x : Reg) (r f : Byte) : (s.setResult x r f).inputs = s.inputs := rfl
@[simp] theorem State.setResult_rndSupply (x : Reg) (r f : Byte) : (s.setResult x r f).rndSupply = s.rndSupply := rfl
@[simp] theorem State.setResult_rndCount (x : Reg) (r f : Byte) : (s.setResult x r f).rndCount = s.rndCount := rfl

/-! ## `drawn` -/

@[simp] theorem State.drawn_cfg (ps : List Position) : (s.drawn ps).cfg = s.cfg := rfl
@[simp] theorem State.drawn_v (ps : List Position) : (s.drawn ps).v = s.v.set vf (collisionFlag s.fb ps) := rfl
@[simp] theorem State.drawn_i (ps : List Position) : (s.drawn ps).i = s.i := rfl
@[simp] theorem State.drawn_pc (ps : List Position) : (s.drawn ps).pc = s.pc := rfl
@[simp] theorem State.drawn_stack (ps : List Position) : (s.drawn ps).stack = s.stack := rfl
@[simp] theorem State.drawn_sp (ps : List Position) : (s.drawn ps).sp = s.sp := rfl
@[simp] theorem State.drawn_dt (ps : List Position) : (s.drawn ps).dt = s.dt := rfl
@[simp] theorem State.drawn_st (ps : List Position) : (s.drawn ps).st = s.st := rfl
@[simp] theorem State.drawn_mem (ps : List Position) : (s.drawn ps).mem = s.mem := rfl
@[simp] theorem State.drawn_fb (ps : List Position) : (s.drawn ps).fb = ps.foldl togglePixel s.fb := rfl
@[simp] theorem State.drawn_keys (ps : List Position) : (s.drawn ps).keys = s.keys := rfl
@[simp] theorem State.drawn_dw (ps : List Position) : (s.drawn ps).dw = if s.cfg.quirks.displayWait then .waitBlank else s.dw := rfl
@[simp] theorem State.drawn_kw (ps : List Position) : (s.drawn ps).kw = s.kw := rfl
@[simp] theorem State.drawn_keyPrev (ps : List Position) : (s.drawn ps).keyPrev = s.keyPrev := rfl
@[simp] theorem State.drawn_err (ps : List Position) : (s.drawn ps).err = s.err := rfl
@[simp] theorem State.drawn_errInfo (ps : List Position) : (s.drawn ps).errInfo = s.errInfo := rfl
@[simp] theorem State.drawn_status (ps : List Position) : (s.drawn ps).status = s.status := rfl
@[simp] theorem State.drawn_loadError (ps : List Position) : (s.drawn ps).loadError = s.loadError := rfl
@[simp] theorem State.drawn_inputs (ps : List Position) : (s.drawn ps).inputs = s.inputs := rfl
@[simp] theorem State.drawn_rndSupply (ps : List Position) : (s.drawn ps).rndSupply = s.rndSupply := rfl
@[simp] theorem State.drawn_rndCount (ps : List Position) : (s.drawn ps).rndCount = s.rndCount := rfl

/-! ## `tick` -/

@[simp] theorem State.tick_cfg : (s.tick).cfg = s.cfg := rfl
@[simp] theorem State.tick_v : (s.tick).v = s.v := rfl
@[simp] theorem State.tick_i : (s.tick).i = s.i := rfl
@[simp] theorem State.tick_pc : (s.tick).pc = s.pc := rfl
@[simp] theorem State.tick_stack : (s.tick).stack = s.stack := rfl
@[simp] theorem State.tick_sp : (s.tick).sp = s.sp := rfl
@[simp] theorem State.tick_dt : (s.tick).dt = tickTimer s.dt := rfl
@[simp] theorem State.tick_st : (s.tick).st = tickTimer s.st := rfl
@[simp] theorem State.tick_mem : (s.tick).mem = s.mem := rfl
@[simp] theorem State.tick_fb : (s.tick).fb = s.fb := rfl
@[simp] theorem State.tick_keys : (s.tick).keys = s.keys := rfl
@[simp] theorem State.tick_dw : (s.tick).dw = .idle := rfl
@[simp] theorem State.tick_kw : (s.tick).kw = s.kw := rfl
@[simp] theorem State.tick_keyPrev : (s.tick).keyPrev = s.keyPrev := rfl
@[simp] theorem State.tick_err : (s.tick).err = s.err := rfl
@[simp] theorem State.tick_errInfo : (s.tick).errInfo = s.errInfo := rfl
@[simp] theorem State.tick_status : (s.tick).status = s.status := rfl
@[simp] theorem State.tick_loadError : (s.tick).loadError = s.loadError := rfl
@[simp] theorem State.tick_inputs : (s.tick).inputs = s.inputs := rfl
@[simp] theorem State.tick_rndSupply : (s.tick).rndSupply = s.rndSupply := rfl
@[simp] theorem State.tick_rndCount : (s.tick).rndCount = s.rndCount := rfl

/-! ## `keypadWrite` -/

@[simp] theorem State.keypadWrite_cfg (ks : BitVec 16) : (s.keypadWrite ks).cfg = s.cfg := rfl
@[simp] theorem State.keypadWrite_v (ks : BitVec 16) : (s.keypadWrite ks).v = s.v := rfl
@[simp] theorem State.keypadWrite_i (ks : BitVec 16) : (s.keypadWrite ks).i = s.i := rfl
@[simp] theorem State.keypadWrite_pc (ks : BitVec 16) : (s.keypadWrite ks).pc = s.pc := rfl
@[simp] theorem State.keypadWrite_stack (ks : BitVec 16) : (s.keypadWrite ks).stack = s.stack := rfl
@[simp] theorem State.keypadWrite_sp (ks : BitVec 16) : (s.keypadWrite ks).sp = s.sp := rfl
@[simp] theorem State.keypadWrite_dt (ks : BitVec 16) : (s.keypadWrite ks).dt = s.dt := rfl
@[simp] theorem State.keypadWrite_st (ks : BitVec 16) : (s.keypadWrite ks).st = s.st := rfl
@[simp] theorem State.keypadWrite_mem (ks : BitVec 16) : (s.keypadWrite ks).mem = s.mem := rfl
@[simp] theorem State.keypadWrite_fb (ks : BitVec 16) : (s.keypadWrite ks).fb = s.fb := rfl
@[simp] theorem State.keypadWrite_keys (ks : BitVec 16) : (s.keypadWrite ks).keys = ks := rfl
@[simp] theorem State.keypadWrite_dw (ks : BitVec 16) : (s.keypadWrite ks).dw = s.dw := rfl
@[simp] theorem State.keypadWrite_kw (ks : BitVec 16) : (s.keypadWrite ks).kw = s.kw := rfl
@[simp] theorem State.keypadWrite_keyPrev (ks : BitVec 16) : (s.keypadWrite ks).keyPrev = s.keyPrev := rfl
@[simp] theorem State.keypadWrite_err (ks : BitVec 16) : (s.keypadWrite ks).err = s.err := rfl
@[simp] theorem State.keypadWrite_errInfo (ks : BitVec 16) : (s.keypadWrite ks).errInfo = s.errInfo := rfl
@[simp] theorem State.keypadWrite_status (ks : BitVec 16) : (s.keypadWrite ks).status = s.status := rfl
@[simp] theorem State.keypadWrite_loadError (ks : BitVec 16) : (s.keypadWrite ks).loadError = s.loadError := rfl
@[simp] theorem State.keypadWrite_inputs (ks : BitVec 16) : (s.keypadWrite ks).inputs = s.inputs := rfl
@[simp] theorem State.keypadWrite_rndSupply (ks : BitVec 16) : (s.keypadWrite ks).rndSupply = s.rndSupply := rfl
@[simp] theorem State.keypadWrite_rndCount (ks : BitVec 16) : (s.keypadWrite ks).rndCount = s.rndCount := rfl

/-! ## `resetEvent` -/

@[simp] theorem State.resetEvent_cfg : s.resetEvent.cfg = s.cfg := rfl
@[simp] theorem State.resetEvent_v : s.resetEvent.v = Vector.replicate 16 0 := rfl
@[simp] theorem State.resetEvent_i : s.resetEvent.i = 0 := rfl
@[simp] theorem State.resetEvent_pc : s.resetEvent.pc = 0x200 := rfl
@[simp] theorem State.resetEvent_stack : s.resetEvent.stack = Vector.replicate 16 0 := rfl
@[simp] theorem State.resetEvent_sp : s.resetEvent.sp = 0 := rfl
@[simp] theorem State.resetEvent_dt : s.resetEvent.dt = 0 := rfl
@[simp] theorem State.resetEvent_st : s.resetEvent.st = 0 := rfl
@[simp] theorem State.resetEvent_mem : s.resetEvent.mem = [] := rfl
@[simp] theorem State.resetEvent_fb : s.resetEvent.fb = Vector.replicate 32 0 := rfl
@[simp] theorem State.resetEvent_keys : s.resetEvent.keys = 0 := rfl
@[simp] theorem State.resetEvent_dw : s.resetEvent.dw = .idle := rfl
@[simp] theorem State.resetEvent_kw : s.resetEvent.kw = false := rfl
@[simp] theorem State.resetEvent_keyPrev : s.resetEvent.keyPrev = 0 := rfl
@[simp] theorem State.resetEvent_err : s.resetEvent.err = none := rfl
@[simp] theorem State.resetEvent_errInfo : s.resetEvent.errInfo = 0 := rfl
@[simp] theorem State.resetEvent_status : s.resetEvent.status = .ok := rfl
@[simp] theorem State.resetEvent_loadError : s.resetEvent.loadError = none := rfl
@[simp] theorem State.resetEvent_inputs : s.resetEvent.inputs = s.inputs := rfl
@[simp] theorem State.resetEvent_rndSupply : s.resetEvent.rndSupply = s.rndSupply := rfl
@[simp] theorem State.resetEvent_rndCount : s.resetEvent.rndCount = s.rndCount := rfl

/-! ## `setBitwise` -/

@[simp] theorem State.setBitwise_cfg (x : Reg) (r : Byte) : (s.setBitwise x r).cfg = s.cfg := by
  unfold State.setBitwise; split <;> rfl
@[simp] theorem State.setBitwise_i (x : Reg) (r : Byte) : (s.setBitwise x r).i = s.i := by
  unfold State.setBitwise; split <;> rfl
@[simp] theorem State.setBitwise_pc (x : Reg) (r : Byte) : (s.setBitwise x r).pc = s.pc := by
  unfold State.setBitwise; split <;> rfl
@[simp] theorem State.setBitwise_stack (x : Reg) (r : Byte) : (s.setBitwise x r).stack = s.stack := by
  unfold State.setBitwise; split <;> rfl
@[simp] theorem State.setBitwise_sp (x : Reg) (r : Byte) : (s.setBitwise x r).sp = s.sp := by
  unfold State.setBitwise; split <;> rfl
@[simp] theorem State.setBitwise_dt (x : Reg) (r : Byte) : (s.setBitwise x r).dt = s.dt := by
  unfold State.setBitwise; split <;> rfl
@[simp] theorem State.setBitwise_st (x : Reg) (r : Byte) : (s.setBitwise x r).st = s.st := by
  unfold State.setBitwise; split <;> rfl
@[simp] theorem State.setBitwise_mem (x : Reg) (r : Byte) : (s.setBitwise x r).mem = s.mem := by
  unfold State.setBitwise; split <;> rfl
@[simp] theorem State.setBitwise_fb (x : Reg) (r : Byte) : (s.setBitwise x r).fb = s.fb := by
  unfold State.setBitwise; split <;> rfl
@[simp] theorem State.setBitwise_keys (x : Reg) (r : Byte) : (s.setBitwise x r).keys = s.keys := by
  unfold State.setBitwise; split <;> rfl
@[simp] theorem State.setBitwise_dw (x : Reg) (r : Byte) : (s.setBitwise x r).dw = s.dw := by
  unfold State.setBitwise; split <;> rfl
@[simp] theorem State.setBitwise_kw (x : Reg) (r : Byte) : (s.setBitwise x r).kw = s.kw := by
  unfold State.setBitwise; split <;> rfl
@[simp] theorem State.setBitwise_keyPrev (x : Reg) (r : Byte) : (s.setBitwise x r).keyPrev = s.keyPrev := by
  unfold State.setBitwise; split <;> rfl
@[simp] theorem State.setBitwise_err (x : Reg) (r : Byte) : (s.setBitwise x r).err = s.err := by
  unfold State.setBitwise; split <;> rfl
@[simp] theorem State.setBitwise_errInfo (x : Reg) (r : Byte) : (s.setBitwise x r).errInfo = s.errInfo := by
  unfold State.setBitwise; split <;> rfl
@[simp] theorem State.setBitwise_status (x : Reg) (r : Byte) : (s.setBitwise x r).status = s.status := by
  unfold State.setBitwise; split <;> rfl
@[simp] theorem State.setBitwise_loadError (x : Reg) (r : Byte) : (s.setBitwise x r).loadError = s.loadError := by
  unfold State.setBitwise; split <;> rfl
@[simp] theorem State.setBitwise_inputs (x : Reg) (r : Byte) : (s.setBitwise x r).inputs = s.inputs := by
  unfold State.setBitwise; split <;> rfl
@[simp] theorem State.setBitwise_rndSupply (x : Reg) (r : Byte) : (s.setBitwise x r).rndSupply = s.rndSupply := by
  unfold State.setBitwise; split <;> rfl
@[simp] theorem State.setBitwise_rndCount (x : Reg) (r : Byte) : (s.setBitwise x r).rndCount = s.rndCount := by
  unfold State.setBitwise; split <;> rfl

/-! ## `advanceIndex` -/

@[simp] theorem State.advanceIndex_cfg (x : Reg) : (s.advanceIndex x).cfg = s.cfg := by
  unfold State.advanceIndex; split <;> rfl
@[simp] theorem State.advanceIndex_v (x : Reg) : (s.advanceIndex x).v = s.v := by
  unfold State.advanceIndex; split <;> rfl
@[simp] theorem State.advanceIndex_pc (x : Reg) : (s.advanceIndex x).pc = s.pc := by
  unfold State.advanceIndex; split <;> rfl
@[simp] theorem State.advanceIndex_stack (x : Reg) : (s.advanceIndex x).stack = s.stack := by
  unfold State.advanceIndex; split <;> rfl
@[simp] theorem State.advanceIndex_sp (x : Reg) : (s.advanceIndex x).sp = s.sp := by
  unfold State.advanceIndex; split <;> rfl
@[simp] theorem State.advanceIndex_dt (x : Reg) : (s.advanceIndex x).dt = s.dt := by
  unfold State.advanceIndex; split <;> rfl
@[simp] theorem State.advanceIndex_st (x : Reg) : (s.advanceIndex x).st = s.st := by
  unfold State.advanceIndex; split <;> rfl
@[simp] theorem State.advanceIndex_mem (x : Reg) : (s.advanceIndex x).mem = s.mem := by
  unfold State.advanceIndex; split <;> rfl
@[simp] theorem State.advanceIndex_fb (x : Reg) : (s.advanceIndex x).fb = s.fb := by
  unfold State.advanceIndex; split <;> rfl
@[simp] theorem State.advanceIndex_keys (x : Reg) : (s.advanceIndex x).keys = s.keys := by
  unfold State.advanceIndex; split <;> rfl
@[simp] theorem State.advanceIndex_dw (x : Reg) : (s.advanceIndex x).dw = s.dw := by
  unfold State.advanceIndex; split <;> rfl
@[simp] theorem State.advanceIndex_kw (x : Reg) : (s.advanceIndex x).kw = s.kw := by
  unfold State.advanceIndex; split <;> rfl
@[simp] theorem State.advanceIndex_keyPrev (x : Reg) : (s.advanceIndex x).keyPrev = s.keyPrev := by
  unfold State.advanceIndex; split <;> rfl
@[simp] theorem State.advanceIndex_err (x : Reg) : (s.advanceIndex x).err = s.err := by
  unfold State.advanceIndex; split <;> rfl
@[simp] theorem State.advanceIndex_errInfo (x : Reg) : (s.advanceIndex x).errInfo = s.errInfo := by
  unfold State.advanceIndex; split <;> rfl
@[simp] theorem State.advanceIndex_status (x : Reg) : (s.advanceIndex x).status = s.status := by
  unfold State.advanceIndex; split <;> rfl
@[simp] theorem State.advanceIndex_loadError (x : Reg) : (s.advanceIndex x).loadError = s.loadError := by
  unfold State.advanceIndex; split <;> rfl
@[simp] theorem State.advanceIndex_inputs (x : Reg) : (s.advanceIndex x).inputs = s.inputs := by
  unfold State.advanceIndex; split <;> rfl
@[simp] theorem State.advanceIndex_rndSupply (x : Reg) : (s.advanceIndex x).rndSupply = s.rndSupply := by
  unfold State.advanceIndex; split <;> rfl
@[simp] theorem State.advanceIndex_rndCount (x : Reg) : (s.advanceIndex x).rndCount = s.rndCount := by
  unfold State.advanceIndex; split <;> rfl

/-! ## `loadRom` -/

@[simp] theorem State.loadRom_cfg (bs : List Byte) : (s.loadRom bs).cfg = s.cfg := by
  unfold State.loadRom; split <;> rfl
@[simp] theorem State.loadRom_v (bs : List Byte) : (s.loadRom bs).v = s.v := by
  unfold State.loadRom; split <;> rfl
@[simp] theorem State.loadRom_i (bs : List Byte) : (s.loadRom bs).i = s.i := by
  unfold State.loadRom; split <;> rfl
@[simp] theorem State.loadRom_pc (bs : List Byte) : (s.loadRom bs).pc = s.pc := by
  unfold State.loadRom; split <;> rfl
@[simp] theorem State.loadRom_stack (bs : List Byte) : (s.loadRom bs).stack = s.stack := by
  unfold State.loadRom; split <;> rfl
@[simp] theorem State.loadRom_sp (bs : List Byte) : (s.loadRom bs).sp = s.sp := by
  unfold State.loadRom; split <;> rfl
@[simp] theorem State.loadRom_dt (bs : List Byte) : (s.loadRom bs).dt = s.dt := by
  unfold State.loadRom; split <;> rfl
@[simp] theorem State.loadRom_st (bs : List Byte) : (s.loadRom bs).st = s.st := by
  unfold State.loadRom; split <;> rfl
@[simp] theorem State.loadRom_fb (bs : List Byte) : (s.loadRom bs).fb = s.fb := by
  unfold State.loadRom; split <;> rfl
@[simp] theorem State.loadRom_keys (bs : List Byte) : (s.loadRom bs).keys = s.keys := by
  unfold State.loadRom; split <;> rfl
@[simp] theorem State.loadRom_dw (bs : List Byte) : (s.loadRom bs).dw = s.dw := by
  unfold State.loadRom; split <;> rfl
@[simp] theorem State.loadRom_keyPrev (bs : List Byte) : (s.loadRom bs).keyPrev = s.keyPrev := by
  unfold State.loadRom; split <;> rfl
@[simp] theorem State.loadRom_err (bs : List Byte) : (s.loadRom bs).err = s.err := by
  unfold State.loadRom; split <;> rfl
@[simp] theorem State.loadRom_errInfo (bs : List Byte) : (s.loadRom bs).errInfo = s.errInfo := by
  unfold State.loadRom; split <;> rfl
@[simp] theorem State.loadRom_status (bs : List Byte) : (s.loadRom bs).status = s.status := by
  unfold State.loadRom; split <;> rfl
@[simp] theorem State.loadRom_inputs (bs : List Byte) : (s.loadRom bs).inputs = s.inputs := by
  unfold State.loadRom; split <;> rfl
@[simp] theorem State.loadRom_rndSupply (bs : List Byte) : (s.loadRom bs).rndSupply = s.rndSupply := by
  unfold State.loadRom; split <;> rfl
@[simp] theorem State.loadRom_rndCount (bs : List Byte) : (s.loadRom bs).rndCount = s.rndCount := by
  unfold State.loadRom; split <;> rfl

@[simp] theorem State.advanceIndex_i (x : Reg) :
    (s.advanceIndex x).i =
      if s.cfg.quirks.memoryIncrement then s.i + BitVec.ofNat 16 (x.val + 1) else s.i := by
  unfold State.advanceIndex; split <;> rfl

@[simp] theorem State.setBitwise_v (x : Reg) (r : Byte) :
    (s.setBitwise x r).v = if s.cfg.quirks.vfReset then (s.v.set x r).set vf 0 else s.v.set x r := by
  unfold State.setBitwise; split <;> rfl

@[simp] theorem State.loadRom_mem (bs : List Byte) :
    (s.loadRom bs).mem = if romFits bs then Memory.writeBytes s.cfg 0x200 bs s.mem else s.mem := by
  unfold State.loadRom; split <;> rfl

@[simp] theorem State.loadRom_kw (bs : List Byte) :
    (s.loadRom bs).kw = if romFits bs then false else s.kw := by
  unfold State.loadRom; split <;> rfl

@[simp] theorem State.loadRom_loadError (bs : List Byte) :
    (s.loadRom bs).loadError = if romFits bs then none else some .romTooLarge := by
  unfold State.loadRom; split <;> rfl

/-! ## Reading a register after a write -/

theorem State.reg_setReg (x j : Reg) (b : Byte) :
    (s.setReg x b).reg j = if j = x then b else s.reg j := by
  simp only [State.reg, State.setReg_v, Fin.getElem_fin, Vector.getElem_set, Fin.val_inj]
  by_cases h : x = j <;> simp [h, eq_comm]

@[simp] theorem State.reg_setReg_same (x : Reg) (b : Byte) : (s.setReg x b).reg x = b := by
  simp [State.reg_setReg]

@[simp] theorem State.reg_setReg_other {x j : Reg} (h : j ≠ x) (b : Byte) :
    (s.setReg x b).reg j = s.reg j := by
  simp [State.reg_setReg, h]

theorem State.reg_setRegs (bs : List Byte) (j : Reg) :
    (s.setRegs bs).reg j = bs.getD j.val (s.reg j) := by
  simp [State.reg, State.setRegs]

theorem State.reg_setResult (x j : Reg) (r f : Byte) :
    (s.setResult x r f).reg j = if j = vf then f else if j = x then r else s.reg j := by
  simp only [State.setResult, State.reg_setReg]

theorem State.reg_setBitwise (x j : Reg) (r : Byte) :
    (s.setBitwise x r).reg j =
      if s.cfg.quirks.vfReset = true ∧ j = vf then 0 else if j = x then r else s.reg j := by
  unfold State.setBitwise
  split <;> rename_i h <;> simp [h, State.reg_setResult, State.reg_setReg]

theorem State.regsUpTo_getElem? (x : Reg) (k : Nat) :
    (s.regsUpTo x)[k]? = if h : k < x.val + 1 then some (s.reg ⟨k, by omega⟩) else none := by
  unfold State.regsUpTo State.reg
  split
  · rename_i h
    simp [h]
  · rename_i h
    simp [h]

@[simp] theorem State.regsUpTo_length (x : Reg) : (s.regsUpTo x).length = x.val + 1 := by
  simp [State.regsUpTo]

/-! ## Updates that keep the registers, memory reads and the registers read before -/

theorem State.reg_congr {s t : State} (h : t.v = s.v) (j : Reg) : t.reg j = s.reg j := by
  simp [State.reg, h]

theorem State.byteAt_congr {s t : State} (hm : t.mem = s.mem) (hc : t.cfg = s.cfg) (a : Nat) :
    t.byteAt a = s.byteAt a := by
  simp [State.byteAt, hm, hc]

theorem State.pixelAt_congr {s t : State} (h : t.fb = s.fb) (x : Fin 64) (y : Fin 32) :
    t.pixelAt x y = s.pixelAt x y := by
  simp [State.pixelAt, h]

theorem State.npc_congr {s t : State} (h : t.pc = s.pc) : t.npc = s.npc := by
  simp [State.npc, h]

end Sys2Proof.Machine
end

