-- ==== Sys2Proof/Laws/Ops.lean ====
section
/-! SUPPORT. Laws/Ops.lean: for each shared operation one lemma that says everything it can do; proofs cite
these and do not unfold the operations. -/

namespace Sys2Proof.Machine

variable (s : State)

/-! ## Checked accesses (spec/20_memory.md R66) -/

theorem outOfBounds_eq_false {a n : Nat} : outOfBounds a n = false ↔ n = 0 ∨ a + n ≤ 0x1000 := by
  simp only [outOfBounds, decide_eq_false_iff_not]; omega

theorem outOfBounds_eq_true {a n : Nat} : outOfBounds a n = true ↔ 0 < n ∧ 0xFFF < a + n - 1 := by
  simp only [outOfBounds, decide_eq_true_eq, gt_iff_lt]

theorem State.memRead_cases (a n : Nat) :
    (n = 0 ∨ a + n ≤ 0x1000) ∧
        s.memRead a n = .ok ((List.range n).map fun k => s.byteAt (a + k)) ∨
      (0 < n ∧ 0xFFF < a + n - 1) ∧ s.memRead a n = .error (max a 0x1000) := by
  unfold State.memRead
  cases h : outOfBounds a n
  · exact .inl ⟨outOfBounds_eq_false.1 h, rfl⟩
  · exact .inr ⟨outOfBounds_eq_true.1 h, rfl⟩

theorem State.memRead_ok {a n : Nat} (h : n = 0 ∨ a + n ≤ 0x1000) :
    s.memRead a n = .ok ((List.range n).map fun k => s.byteAt (a + k)) := by
  unfold State.memRead; rw [outOfBounds_eq_false.2 h]; rfl

theorem State.memRead_error {a n : Nat} (h : 0 < n ∧ 0xFFF < a + n - 1) :
    s.memRead a n = .error (max a 0x1000) := by
  unfold State.memRead; rw [outOfBounds_eq_true.2 h]; rfl

theorem State.memWrite_cases (a : Nat) (bs : List Byte) :
    (bs.length = 0 ∨ a + bs.length ≤ 0x1000) ∧ s.memWrite a bs = .ok (s.storeBytes a bs) ∨
      (0 < bs.length ∧ 0xFFF < a + bs.length - 1) ∧ s.memWrite a bs = .error (max a 0x1000) := by
  unfold State.memWrite
  cases h : outOfBounds a bs.length
  · exact .inl ⟨outOfBounds_eq_false.1 h, rfl⟩
  · exact .inr ⟨outOfBounds_eq_true.1 h, rfl⟩

theorem State.memWrite_ok {a : Nat} {bs : List Byte} (h : bs.length = 0 ∨ a + bs.length ≤ 0x1000) :
    s.memWrite a bs = .ok (s.storeBytes a bs) := by
  unfold State.memWrite; rw [outOfBounds_eq_false.2 h]; rfl

theorem State.memWrite_error {a : Nat} {bs : List Byte}
    (h : 0 < bs.length ∧ 0xFFF < a + bs.length - 1) :
    s.memWrite a bs = .error (max a 0x1000) := by
  unfold State.memWrite; rw [outOfBounds_eq_true.2 h]; rfl

@[simp] theorem State.orOutOfBounds_ok {α : Type} (x : α) (k : α → Result) :
    s.orOutOfBounds (.ok x) k = k x := rfl

@[simp] theorem State.orOutOfBounds_error {α : Type} (n : Nat) (k : α → Result) :
    s.orOutOfBounds (.error n) k = .next (s.raise .memoryOutOfBounds n) := rfl

/-! ## Fetch (spec/40_execution_cycle.md R123) -/

theorem State.fetchWord_ok (h : s.pc ≠ 0xFFF) :
    s.fetchWord = .ok (wordOfBytes (s.byteAt s.pc.toNat) (s.byteAt (s.pc.toNat + 1))) := by
  have h' : s.pc.toNat ≠ 0xFFF := fun e => h (BitVec.eq_of_toNat_eq (by simpa using e))
  have := s.pc.isLt
  unfold State.fetchWord
  rw [s.memRead_ok (.inr (by omega))]
  rfl

theorem State.fetchWord_top (h : s.pc = 0xFFF) : s.fetchWord = .error 0x1000 := by
  unfold State.fetchWord
  rw [s.memRead_error (by simp [h])]
  simp [h]

theorem State.fetchWord_congr {s t : State} (hp : t.pc = s.pc)
    (hb : ∀ a, t.byteAt a = s.byteAt a) : t.fetchWord = s.fetchWord := by
  unfold State.fetchWord State.memRead
  simp only [hp, hb]

/-! ## The address stack (spec/10_state.md R24, R25) -/

theorem State.push_cases (a : BitVec 16) :
    (∃ h : s.sp.val < 16, s.push a =
        some { s with stack := s.stack.set s.sp.val a, sp := ⟨s.sp.val + 1, by omega⟩ }) ∨
      s.sp.val = 16 ∧ s.push a = none := by
  unfold State.push
  split
  · rename_i h; exact .inl ⟨h, rfl⟩
  · exact .inr ⟨by omega, rfl⟩

theorem State.pop_cases :
    (∃ h : 0 < s.sp.val, s.pop =
        some (s.stack[s.sp.val - 1]'(by omega), { s with sp := ⟨s.sp.val - 1, by omega⟩ })) ∨
      s.sp.val = 0 ∧ s.pop = none := by
  unfold State.pop
  split
  · rename_i h; exact .inl ⟨h, rfl⟩
  · exact .inr ⟨by omega, rfl⟩

/-! ## The framebuffer (spec/45_display.md R242) -/

theorem pixel_togglePixel (fb : Screen) (p q : Position) :
    pixel (togglePixel fb p) q = if q = p then !pixel fb q else pixel fb q := by
  obtain ⟨px, py⟩ := p
  obtain ⟨qx, qy⟩ := q
  simp only [pixel, togglePixel, Fin.getElem_fin, Vector.getElem_set, Prod.mk.injEq]
  by_cases hy : py = qy
  · subst hy
    by_cases hx : qx = px
    · subst hx; simp
    · have : px.val ≠ qx.val := fun e => hx (Fin.ext e.symm)
      simp [hx, Ne.symm this]
  · have : py.val ≠ qy.val := fun e => hy (Fin.ext e)
    simp [this, Ne.symm hy, eq_comm]

@[simp] theorem pixel_clear (p : Position) : pixel (Vector.replicate 32 0#64) p = false := by
  simp [pixel]

/-! ## The Step event and the delivery of events (spec/40_execution_cycle.md R120 to R123) -/

theorem step_nil (h : s.inputs = []) : step s = stepEvent s := by
  simp [step, nextEvent, h, deliver]

theorem step_cons {e : HostEvent} {rest : List HostEvent} (h : s.inputs = e :: rest) :
    step s = deliver e { s with inputs := rest } := by
  simp [step, nextEvent, h]

/-- A run of one event more. -/
theorem core_run_succ {s t : State} (k : Nat) (h : step s = .next t) :
    Host.Core.run core (k + 1) s = Host.Core.run core k t := by
  have h' : core.step s = .next t := h
  have e := Host.Core.run.eq_2 core s k
  rw [h'] at e
  exact e

/-- Everything a Step event can do: report a halted core, raise at fetch, raise at decode, or execute. -/
theorem stepEvent_cases :
    ((∃ k, s.err = some k) ∧ stepEvent s = .next (s.hold .error)) ∨
    (s.err = none ∧ s.pc = 0xFFF ∧ stepEvent s = .next (s.raise .memoryOutOfBounds 0x1000)) ∨
    (∃ w e, s.err = none ∧ s.fetchWord = .ok w ∧ decodeWord w = .error e ∧
      stepEvent s = .next (s.raise .invalidOpcode w.toNat)) ∨
    (∃ w i, s.err = none ∧ s.fetchWord = .ok w ∧ decodeWord w = .ok i ∧ stepEvent s = exec i s) := by
  unfold stepEvent
  cases he : s.err with
  | some k => exact .inl ⟨⟨k, rfl⟩, rfl⟩
  | none =>
    refine .inr ?_
    by_cases hp : s.pc = 0xFFF
    · exact .inl ⟨rfl, hp, by simp [s.fetchWord_top hp]⟩
    · refine .inr ?_
      rw [s.fetchWord_ok hp]
      cases hd : decodeWord (wordOfBytes (s.byteAt s.pc.toNat) (s.byteAt (s.pc.toNat + 1))) with
      | error e => exact .inl ⟨_, e, rfl, rfl, hd, by simp [hd]⟩
      | ok i => exact .inr ⟨_, i, rfl, rfl, hd, by simp [hd]⟩

end Sys2Proof.Machine
end

