-- ==== Sys2Proof/Laws/PerInstr.lean ====
section
/-! SUPPORT. Laws/PerInstr.lean: the family RowMatch, one lemma for each instruction: the word an
instruction encodes to matches the instruction's own row of the opcode map (spec/30_encoding.md R92, R95). -/

namespace Sys2Proof.Laws.RowMatch

/-- The instruction's word agrees with its row: `w & mask = match`. -/
def Statement (i : Instr) : Prop := encodeWord i &&& i.opRow.mask = i.opRow.pattern

/-! ## The four formats (R92) -/

theorem opAddr_matches (op : BitVec 4) (nnn : Addr) :
    opAddr op nnn &&& 0xF000 = opAddr op 0 := by
  unfold opAddr
  apply BitVec.eq_of_getLsbD_eq
  intro i hi
  simp only [BitVec.getLsbD_and, BitVec.getLsbD_append]
  interval_cases i <;> simp

theorem opImm_matches (op : BitVec 4) (x : Reg) (kk : Byte) :
    opRegByte op x kk &&& 0xF000 = opAddr op 0 := by
  unfold opRegByte opAddr
  apply BitVec.eq_of_getLsbD_eq
  intro i hi
  simp only [BitVec.getLsbD_and, BitVec.getLsbD_append]
  interval_cases i <;> simp

theorem opRegByte_matches (op : BitVec 4) (x : Reg) (kk : Byte) :
    opRegByte op x kk &&& 0xF0FF = opRegByte op 0 kk := by
  unfold opRegByte
  apply BitVec.eq_of_getLsbD_eq
  intro i hi
  simp only [BitVec.getLsbD_and, BitVec.getLsbD_append]
  interval_cases i <;> simp [show regField 0 = 0#4 from rfl]

theorem opNibble_matches (op b c d : BitVec 4) :
    nibbles op b c d &&& 0xF000 = opAddr op 0 := by
  unfold nibbles opAddr
  apply BitVec.eq_of_getLsbD_eq
  intro i hi
  simp only [BitVec.getLsbD_and, BitVec.getLsbD_append]
  interval_cases i <;> simp

theorem nibbles_matches (op b c d : BitVec 4) :
    nibbles op b c d &&& 0xF00F = nibbles op 0 0 d := by
  unfold nibbles
  apply BitVec.eq_of_getLsbD_eq
  intro i hi
  simp only [BitVec.getLsbD_and, BitVec.getLsbD_append]
  interval_cases i <;> simp

/-! ## One lemma for each instruction -/

theorem cls : Statement .cls := by unfold Statement; decide
theorem ret : Statement .ret := by unfold Statement; decide
theorem jp (nnn : Addr) : Statement (.jp nnn) := opAddr_matches _ _
theorem call (nnn : Addr) : Statement (.call nnn) := opAddr_matches _ _
theorem seImm (x : Reg) (kk : Byte) : Statement (.seImm x kk) := opImm_matches _ _ _
theorem sneImm (x : Reg) (kk : Byte) : Statement (.sneImm x kk) := opImm_matches _ _ _
theorem seReg (x : Reg) (y : Reg) : Statement (.seReg x y) := nibbles_matches _ _ _ _
theorem ldImm (x : Reg) (kk : Byte) : Statement (.ldImm x kk) := opImm_matches _ _ _
theorem addImm (x : Reg) (kk : Byte) : Statement (.addImm x kk) := opImm_matches _ _ _
theorem ldReg (x : Reg) (y : Reg) : Statement (.ldReg x y) := nibbles_matches _ _ _ _
theorem orReg (x : Reg) (y : Reg) : Statement (.orReg x y) := nibbles_matches _ _ _ _
theorem andReg (x : Reg) (y : Reg) : Statement (.andReg x y) := nibbles_matches _ _ _ _
theorem xorReg (x : Reg) (y : Reg) : Statement (.xorReg x y) := nibbles_matches _ _ _ _
theorem addReg (x : Reg) (y : Reg) : Statement (.addReg x y) := nibbles_matches _ _ _ _
theorem subReg (x : Reg) (y : Reg) : Statement (.subReg x y) := nibbles_matches _ _ _ _
theorem shr (x : Reg) (y : Reg) : Statement (.shr x y) := nibbles_matches _ _ _ _
theorem subnReg (x : Reg) (y : Reg) : Statement (.subnReg x y) := nibbles_matches _ _ _ _
theorem shl (x : Reg) (y : Reg) : Statement (.shl x y) := nibbles_matches _ _ _ _
theorem sneReg (x : Reg) (y : Reg) : Statement (.sneReg x y) := nibbles_matches _ _ _ _
theorem ldI (nnn : Addr) : Statement (.ldI nnn) := opAddr_matches _ _
theorem jpV0 (nnn : Addr) : Statement (.jpV0 nnn) := opAddr_matches _ _
theorem rnd (x : Reg) (kk : Byte) : Statement (.rnd x kk) := opImm_matches _ _ _
theorem drw (x : Reg) (y : Reg) (n : BitVec 4) : Statement (.drw x y n) := opNibble_matches _ _ _ _
theorem skp (x : Reg) : Statement (.skp x) := opRegByte_matches _ _ _
theorem sknp (x : Reg) : Statement (.sknp x) := opRegByte_matches _ _ _
theorem ldVxDt (x : Reg) : Statement (.ldVxDt x) := opRegByte_matches _ _ _
theorem ldVxK (x : Reg) : Statement (.ldVxK x) := opRegByte_matches _ _ _
theorem ldDtVx (x : Reg) : Statement (.ldDtVx x) := opRegByte_matches _ _ _
theorem ldStVx (x : Reg) : Statement (.ldStVx x) := opRegByte_matches _ _ _
theorem addI (x : Reg) : Statement (.addI x) := opRegByte_matches _ _ _
theorem ldF (x : Reg) : Statement (.ldF x) := opRegByte_matches _ _ _
theorem ldB (x : Reg) : Statement (.ldB x) := opRegByte_matches _ _ _
theorem storeRegs (x : Reg) : Statement (.storeRegs x) := opRegByte_matches _ _ _
theorem loadRegs (x : Reg) : Statement (.loadRegs x) := opRegByte_matches _ _ _

end Sys2Proof.Laws.RowMatch
end

