-- ==== Sys2Proof/Tests/Slice0.lean ====
section
/-! SUPPORT. Tests/Slice0.lean: the model's own tests. The expected results are the vectors of
spec/95_test_vectors.md (T1 to T159, S1 to S10), named in each theorem, and the words are written out from
the patterns of spec/30_encoding.md R95. The last part shows, for each statement of
Certificates/Slice0/Obligations.lean that has hypotheses, states that meet them. -/

open Sys2Proof Sys2Proof.Machine

namespace Sys2Proof.Tests

/-! ## Helpers -/

/-- The result is a next state with the property. -/
def after (f : State → Bool) : Result → Bool
  | .next t => f t
  | .fault _ => false
  | .refused _ => false

/-- One step with the word placed at pc. -/
def run (w : Word) (s : State) : Result := step (s.placeWord w)

/-- The reset state with the registers listed. -/
def regs (l : List (Reg × Byte)) : State := l.foldl (fun s p => s.setReg p.1 p.2) State.reset

/-- A state with the quirks changed. -/
def State.quirks (f : Quirks → Quirks) (s : State) : State :=
  { s with cfg := { s.cfg with quirks := f s.cfg.quirks } }

/-- The reset state with `n` stack entries in use, each 0x206, and the bottom one `a`. -/
def stacked (a : BitVec 16) (n : Fin 17) : State :=
  { State.reset with sp := n, stack := (Vector.replicate 16 0x206).set 0 a }

/-- Register and VF after the step. -/
def regAnd (x : Reg) (b f : Byte) : Result → Bool := after fun t => t.reg x == b && t.reg vf == f

/-- The bytes from an address. -/
def bytes (s : State) (a n : Nat) : List Byte := (List.range n).map fun k => s.byteAt (a + k)

/-- The error latched, its value, and pc. -/
def raisedAt (k : ErrorKind) (info : BitVec 17) (pc : Addr) : Result → Bool :=
  after fun t => t.err == some k && t.errInfo == info && t.pc == pc && t.status == .error

/-- pc after a completed step. -/
def goesTo (pc : Addr) : Result → Bool := after fun t => t.pc == pc && t.status == .ok

/-- The lit pixels of the 8 by 8 corner at `(x0, y0)`, coordinates modulo the grid. -/
def lit (s : State) (x0 y0 : Nat) : List (Nat × Nat) :=
  ((List.range 8).flatMap fun y => (List.range 8).map fun x => (x, y)).filter fun p =>
    s.pixelAt (Fin.ofNat 64 (x0 + p.1)) (Fin.ofNat 32 (y0 + p.2))

/-! ## Well-formedness: one ill-formed word for each group (spec/30_encoding.md R96; T1 to T7) -/

theorem test_wf_refuses_group_0 : wordWellFormed 0x0000 = false ∧ wordWellFormed 0x0123 = false := by decide
theorem test_wf_refuses_group_5 : wordWellFormed 0x5121 = false := by decide
theorem test_wf_refuses_group_8 : wordWellFormed 0x8008 = false ∧ wordWellFormed 0x800F = false := by decide
theorem test_wf_refuses_group_9 : wordWellFormed 0x9001 = false := by decide
theorem test_wf_refuses_group_E : wordWellFormed 0xE09F = false := by decide
theorem test_wf_refuses_group_F : wordWellFormed 0xF000 = false := by decide
theorem test_wf_accepts_each_row : opTable.all (fun r => wordWellFormed r.pattern) = true := by decide
theorem test_rows_do_not_overlap :
    opTable.Pairwise (fun r q => r.pattern &&& q.mask ≠ q.pattern &&& r.mask) := by decide
theorem test_rom_of_3585_bytes_refused : romFits (List.replicate 3585 0) = false := by
  unfold romFits; rw [List.length_replicate]; rfl

/-! ## Decoding: a word written out for every instruction (spec/30_encoding.md R95) -/

theorem test_decode_cls : decodeWord 0b0000000011100000 = .ok .cls := by decide
theorem test_decode_ret : decodeWord 0b0000000011101110 = .ok .ret := by decide
theorem test_decode_jp : decodeWord 0b0001101010111100 = .ok (.jp 0xABC) := by decide
theorem test_decode_call : decodeWord 0b0010001100000000 = .ok (.call 0x300) := by decide
theorem test_decode_seImm : decodeWord 0b0011001100101010 = .ok (.seImm 3 0x2A) := by decide
theorem test_decode_sneImm : decodeWord 0b0100001100101010 = .ok (.sneImm 3 0x2A) := by decide
theorem test_decode_seReg : decodeWord 0b0101000100100000 = .ok (.seReg 1 2) := by decide
theorem test_decode_ldImm : decodeWord 0b0110101000111100 = .ok (.ldImm 10 0x3C) := by decide
theorem test_decode_addImm : decodeWord 0b0111000000000010 = .ok (.addImm 0 2) := by decide
theorem test_decode_ldReg : decodeWord 0b1000111100010000 = .ok (.ldReg 15 1) := by decide
theorem test_decode_orReg : decodeWord 0b1000111100010001 = .ok (.orReg 15 1) := by decide
theorem test_decode_andReg : decodeWord 0b1000111100010010 = .ok (.andReg 15 1) := by decide
theorem test_decode_xorReg : decodeWord 0b1000111100010011 = .ok (.xorReg 15 1) := by decide
theorem test_decode_addReg : decodeWord 0b1000111100010100 = .ok (.addReg 15 1) := by decide
theorem test_decode_subReg : decodeWord 0b1000111100010101 = .ok (.subReg 15 1) := by decide
theorem test_decode_shr : decodeWord 0b1000111100010110 = .ok (.shr 15 1) := by decide
theorem test_decode_subnReg : decodeWord 0b1000111100010111 = .ok (.subnReg 15 1) := by decide
theorem test_decode_shl : decodeWord 0b1000111100011110 = .ok (.shl 15 1) := by decide
theorem test_decode_sneReg : decodeWord 0b1001000100100000 = .ok (.sneReg 1 2) := by decide
theorem test_decode_ldI : decodeWord 0b1010001011110000 = .ok (.ldI 0x2F0) := by decide
theorem test_decode_jpV0 : decodeWord 0b1011001011110000 = .ok (.jpV0 0x2F0) := by decide
theorem test_decode_rnd : decodeWord 0b1100001100001111 = .ok (.rnd 3 0x0F) := by decide
theorem test_decode_drw : decodeWord 0b1101111100010101 = .ok (.drw 15 1 5) := by decide
theorem test_decode_skp : decodeWord 0b1110000010011110 = .ok (.skp 0) := by decide
theorem test_decode_sknp : decodeWord 0b1110010110100001 = .ok (.sknp 5) := by decide
theorem test_decode_ldVxDt : decodeWord 0b1111010000000111 = .ok (.ldVxDt 4) := by decide
theorem test_decode_ldVxK : decodeWord 0b1111001100001010 = .ok (.ldVxK 3) := by decide
theorem test_decode_ldDtVx : decodeWord 0b1111010000010101 = .ok (.ldDtVx 4) := by decide
theorem test_decode_ldStVx : decodeWord 0b1111000100011000 = .ok (.ldStVx 1) := by decide
theorem test_decode_addI : decodeWord 0b1111001000011110 = .ok (.addI 2) := by decide
theorem test_decode_ldF : decodeWord 0b1111000000101001 = .ok (.ldF 0) := by decide
theorem test_decode_ldB : decodeWord 0b1111000000110011 = .ok (.ldB 0) := by decide
theorem test_decode_storeRegs : decodeWord 0b1111111101010101 = .ok (.storeRegs 15) := by decide
theorem test_decode_loadRegs : decodeWord 0b1111001001100101 = .ok (.loadRegs 2) := by decide

theorem test_decode_is_big_endian : decode [0xD1, 0x25, 0xAA] = .ok (.drw 1 2 5, [0xAA]) := by decide
theorem test_decode_rejects_by_name : decode [0x51, 0x21] = .error (.invalidOpcode 0x5121) := by decide
theorem test_decode_truncated : decode [0x51] = .error .truncated := by decide
theorem test_decodeTableWord : decodeTableWord 16 0x8F1E = some (.shl 15 1) ∧
    decodeTableWord 16 0xF000 = none := by decide
theorem test_encode_drw : encode (.drw 1 2 5) = [0xD1, 0x25] := by decide

/-! ## Fetch and errors -/

theorem test_T1_nothing_loaded : raisedAt .invalidOpcode 0 0x200 (step State.reset) = true := by decide
theorem test_T2_group_5 : raisedAt .invalidOpcode 0x5121 0x200 (run 0x5121 State.reset) = true := by decide
theorem test_T8_fetch_at_top :
    raisedAt .memoryOutOfBounds 0x1000 0xFFF (step { State.reset with pc := 0xFFF }) = true := by decide
theorem test_T9_pc_wraps : goesTo 0x000 (run 0x6007 { State.reset with pc := 0xFFE }) = true := by decide
theorem test_T157_halted_step :
    after (fun t => t == { regs [(0, 3)] with err := some .invalidOpcode, status := .error })
      (step { regs [(0, 3)] with err := some .invalidOpcode }) = true := by decide

/-! ## Control flow -/

theorem test_T20_ret :
    after (fun t => t.pc == 0x206 && t.sp == 0) (run 0x00EE { stacked 0x206 1 with pc := 0x300 }) = true := by decide
theorem test_T21_ret_empty : raisedAt .stackUnderflow 0 0x200 (run 0x00EE State.reset) = true := by decide
theorem test_T22_jp : goesTo 0xABC (run 0x1ABC State.reset) = true := by decide
theorem test_T24_call_at_top :
    after (fun t => t.pc == 0x300 && t.sp == 1 && t.stack[0] == 0)
      (run 0x2300 { stacked 0xFFF 0 with pc := 0xFFE }) = true := by decide
theorem test_S9_call_full : raisedAt .stackOverflow 0 0x200 (run 0x2200 (stacked 0x202 16)) = true := by decide
theorem test_T25_se : goesTo 0x204 (run 0x332A (regs [(3, 0x2A)])) = true := by decide
theorem test_T10_se_wraps : goesTo 0x002 (run 0x3000 { State.reset with pc := 0xFFE }) = true := by decide
theorem test_T27_sne : goesTo 0x202 (run 0x432A (regs [(3, 0x2A)])) = true := by decide
theorem test_T28_sne : goesTo 0x204 (run 0x432A State.reset) = true := by decide
theorem test_T29_se_reg : goesTo 0x204 (run 0x5120 (regs [(1, 7), (2, 7)])) = true := by decide
theorem test_T30_se_reg : goesTo 0x202 (run 0x5120 (regs [(1, 7), (2, 8)])) = true := by decide
theorem test_T31_sne_reg : goesTo 0x204 (run 0x9120 (regs [(1, 7), (2, 8)])) = true := by decide
theorem test_T32_sne_same : goesTo 0x202 (run 0x9330 (regs [(3, 9)])) = true := by decide
theorem test_T33_jp_v0 :
    raisedAt .memoryOutOfBounds 0x10FE 0x200 (run 0xBFFF (regs [(0, 0xFF)])) = true := by decide
theorem test_S5_jp_jumping :
    goesTo 0x2F4 (run 0xB2F0 (State.quirks (fun q => { q with jumping := true }) (regs [(0, 0x10), (2, 4)]))) = true := by
  decide

/-! ## Register load and ALU -/

theorem test_T40_ld : regAnd 10 0x3C 0 (run 0x6A3C State.reset) = true := by decide
theorem test_T41_add_imm : regAnd 0 0x01 0 (run 0x7002 (regs [(0, 0xFF)])) = true := by decide
theorem test_T42_add_imm_vf : regAnd 15 0xFF 0xFF (run 0x7FFF State.reset) = true := by decide
theorem test_T43_ld_reg : regAnd 0 0x55 1 (run 0x8010 (regs [(1, 0x55), (15, 1)])) = true := by decide
theorem test_S1_or : regAnd 0 0xFC 0 (run 0x8011 (State.quirks (fun q => { q with vfReset := true })
    (regs [(0, 0xF0), (1, 0x3C), (15, 1)]))) = true := by decide
theorem test_T66_or : regAnd 15 0xF1 0xF1 (run 0x8F11 (regs [(15, 1), (1, 0xF0)])) = true := by decide
theorem test_S1_and : regAnd 0 0x30 0 (run 0x8012 (State.quirks (fun q => { q with vfReset := true })
    (regs [(0, 0xF0), (1, 0x3C), (15, 1)]))) = true := by decide
theorem test_S1_and_off : regAnd 0 0x30 1 (run 0x8012 (regs [(0, 0xF0), (1, 0x3C), (15, 1)])) = true := by decide
theorem test_S1_xor : regAnd 0 0xCC 0 (run 0x8013 (State.quirks (fun q => { q with vfReset := true })
    (regs [(0, 0xF0), (1, 0x3C), (15, 1)]))) = true := by decide
theorem test_T68_xor : regAnd 0 0 1 (run 0x8003 (regs [(0, 0x5A), (15, 1)])) = true := by decide
theorem test_T44_add : regAnd 0 1 1 (run 0x8014 (regs [(0, 0xFF), (1, 2)])) = true := by decide
theorem test_T48_add_vf : regAnd 15 1 1 (run 0x8F14 (regs [(15, 0xF0), (1, 0x20)])) = true := by decide
theorem test_T51_sub : regAnd 0 0xFF 0 (run 0x8015 (regs [(0, 1), (1, 2)])) = true := by decide
theorem test_T52_sub_equal : regAnd 0 0 1 (run 0x8015 (regs [(0, 5), (1, 5)])) = true := by decide
theorem test_T60_shr : regAnd 0 0x40 0 (run 0x8016 (regs [(0, 3), (1, 0x80)])) = true := by decide
theorem test_T61_shr_shifting : regAnd 0 1 1 (run 0x8016 (State.quirks (fun q => { q with shifting := true })
    (regs [(0, 3), (1, 0x80)]))) = true := by decide
theorem test_T57_subn : regAnd 0 0xFF 0 (run 0x8017 (regs [(0, 2), (1, 1)])) = true := by decide
theorem test_T58_subn : regAnd 0 2 1 (run 0x8017 (regs [(0, 1), (1, 3)])) = true := by decide
theorem test_S4_shl : regAnd 0 2 1 (run 0x801E (regs [(1, 0x81)])) = true := by decide
theorem test_S4_shl_shifting : regAnd 0 0xFE 1 (run 0x801E (State.quirks (fun q => { q with shifting := true })
    (regs [(0, 0xFF), (1, 0x40)]))) = true := by decide

/-! ## Index register and memory -/

theorem test_T80_ld_i : after (fun t => t.i == 0x2F0) (run 0xA2F0 State.reset) = true := by decide
theorem test_T82_add_i_past_top : after (fun t => t.i == 0x1000 && t.status == .ok)
    (run 0xF01E ((regs [(0, 1)]).setIndex 0xFFF)) = true := by decide
theorem test_T83_add_i_wraps : after (fun t => t.i == 1) (run 0xF01E ((regs [(0, 2)]).setIndex 0xFFFF)) = true := by
  decide
theorem test_T86_ld_f : after (fun t => t.i == 0x73) (run 0xF029 (regs [(0, 0x37)])) = true := by decide
theorem test_T90_bcd_at_top : after (fun t => bytes t 0xFFD 3 == [2, 3, 4])
    (run 0xF033 ((regs [(0, 0xEA)]).setIndex 0xFFD)) = true := by decide
theorem test_T91_bcd_past_top : after (fun t => bytes t 0xFFE 2 == [0xAA, 0xBB] && t.errInfo == 0x1000)
    (run 0xF033 (((regs [(0, 0xEA)]).setIndex 0xFFE).storeBytes 0xFFE [0xAA, 0xBB])) = true := by decide
theorem test_S2_store : after (fun t => bytes t 0x400 4 == [0x11, 0x22, 0x33, 0] && t.i == 0x403)
    (run 0xF255 (State.quirks (fun q => { q with memoryIncrement := true })
      ((regs [(0, 0x11), (1, 0x22), (2, 0x33), (3, 0x44)]).setIndex 0x400))) = true := by decide
theorem test_T94_store_past_top :
    raisedAt .memoryOutOfBounds 0x1000 0x200 (run 0xFF55 (State.reset.setIndex 0xFF1)) = true := by decide
theorem test_S2_load : after (fun t => t.reg 0 == 0xAA && t.reg 2 == 0xCC && t.reg 3 == 0x77 && t.i == 0x400)
    (run 0xF265 (((regs [(3, 0x77)]).setIndex 0x400).storeBytes 0x400 [0xAA, 0xBB, 0xCC, 0xDD])) = true := by decide
theorem test_T97_load_past_top : after (fun t => t.reg 0 == 1 && t.errInfo == 0x1000 && t.i == 0xFFE)
    (run 0xF265 ((regs [(0, 1), (1, 2), (2, 3)]).setIndex 0xFFE)) = true := by decide

/-! ## Random, timers, keypad -/

theorem test_T110_rnd : after (fun t => t.reg 3 == 7 && t.rndSupply == [0x5C])
    (run 0xC30F { State.reset with rndSupply := [0xA7, 0x5C] }) = true := by decide
theorem test_S10_rnd_zero : after (fun t => t.reg 3 == 0 && t.rndCount == 1)
    (run 0xC300 { regs [(3, 0xFF)] with rndSupply := [0xA7] }) = true := by decide
theorem test_T114_skp : goesTo 0x204 (run 0xE09E { regs [(0, 5)] with keys := 0x20 }) = true := by decide
theorem test_T115_skp : goesTo 0x202 (run 0xE09E (regs [(0, 5)])) = true := by decide
theorem test_T116_sknp : goesTo 0x202 (run 0xE0A1 { regs [(0, 0x15)] with keys := 0x20 }) = true := by decide
theorem test_T117_sknp : goesTo 0x204 (run 0xE0A1 (regs [(0, 0x15)])) = true := by decide
theorem test_T111_ld_dt : regAnd 4 0x3C 0 (run 0xF407 { State.reset with dt := 0x3C }) = true := by decide
theorem test_T112_set_dt : after (fun t => t.dt == 0x3C) (run 0xF415 (regs [(4, 0x3C)])) = true := by decide
theorem test_T113_set_st : after (fun t => t.st == 2 && t.soundActive) (run 0xF118 (regs [(1, 2)])) = true := by decide
theorem test_T119_key_held : after (fun t => t.status == .awaitKey && t.kw && t.keyPrev == 2 && t.pc == 0x200)
    (run 0xF30A { State.reset with keys := 2 }) = true := by decide
theorem test_T118_key_lowest : after (fun t => t.reg 3 == 4 && !t.kw && t.pc == 0x202 && t.status == .ok)
    (run 0xF30A { State.reset with kw := true, keys := 0x90 }) = true := by decide

/-! ## Display -/

theorem test_S7_cls : after (fun t => lit t 0 0 == [] && t.reg vf == 1 && t.dw == .waitBlank)
    (run 0x00E0 (State.quirks (fun q => { q with displayWait := true })
      { regs [(15, 1)] with fb := togglePixel State.reset.fb (3, 3), dw := .waitBlank })) = true := by decide
theorem test_S8_draw_glyph_0 :
    after (fun t => t.reg vf == 0 && lit t 0 0 ==
      [(0, 0), (1, 0), (2, 0), (3, 0), (0, 1), (3, 1), (0, 2), (3, 2), (0, 3), (3, 3),
        (0, 4), (1, 4), (2, 4), (3, 4)]) (run 0xD005 (State.reset.setIndex 0x50)) = true := by decide
theorem test_T136_draw_wraps_and_collides :
    after (fun t => t.reg vf == 1 && lit t 60 0 == [])
      (run 0xD011 ((({ regs [(0, 0x3C)] with fb := togglePixel State.reset.fb (0, 0) }).setIndex 0x300).storeBytes
        0x300 [0x08])) = true := by decide

/-! ## Host events -/

theorem test_T150_tick : after (fun t => t.dt == 2 && t.st == 1 && t.dw == .idle)
    (step { State.reset with dt := 3, st := 2, dw := .waitBlank, inputs := [.tick] }) = true := by decide
theorem test_T153_keypad : after (fun t => t.keys == 1 && t.keyPrev == 0 && !t.kw)
    (step { State.reset with keys := 0xFFFF, inputs := [.keypadWrite 1] }) = true := by decide
theorem test_load_rom : after (fun t => bytes t 0x1FF 4 == [0, 0x60, 0x01, 0] && !t.kw)
    (step { State.reset with kw := true, inputs := [.loadRom [0x60, 0x01]] }) = true := by decide
theorem test_T158_reset : after (fun t => t == State.reset)
    (step { (regs [(0, 3)]).storeBytes 0x200 [0x12] with err := some .invalidOpcode, inputs := [.reset] }) = true := by
  decide

/-! ## The host's probe -/

theorem test_withFetchWord : goesTo 0xABC (step (State.reset.withFetchWord 16 0x1ABC)) = true := by decide
theorem test_withFetchWord_at_top :
    goesTo 0xABC (step ({ State.reset with pc := 0xFFF }.withFetchWord 16 0x1ABC)) = true := by decide

/-! ## Witnesses: states and operands that meet the hypotheses of each statement

One theorem for each hypothesis set, and one for each clause of a statement of several clauses, at a boundary
value of the clause where it has one. -/

/-- Halted by an invalid word at the reset pc. -/
def haltedState : State := { State.reset with err := some .invalidOpcode }

/-- A loop forever at the reset pc. -/
def finishedState : State := State.reset.storeBytes 0x200 [0x12, 0x00]

/-- A draw is waiting for the tick. -/
def blankWait : State := State.quirks (fun q => { q with displayWait := true }) { State.reset with dw := .waitBlank }

/-- Registers V0 and V1 hold the word of a jump to 0x202; I points behind the instruction at 0x200. -/
def selfModify : State := (regs [(0, 0x12), (1, 0x02)]).setIndex 0x202

/-- All quirks on. -/
def allQuirks (s : State) : State := State.quirks (fun _ => ⟨true, true, true, true, true, true⟩) s

/-- The invariant holds at reset. -/
theorem witness_reset_inv : State.reset.Inv :=
  ⟨by decide, by decide, by decide, fun h => absurd h (by decide), by decide, by decide,
    fun h => absurd h (by decide), fun h => absurd h (by decide), by decide⟩

/-- The invariant holds in a halted state. -/
theorem witness_halted_inv : haltedState.Inv :=
  ⟨by decide, by decide, by decide, fun h => absurd h (by decide), by decide, by decide, fun _ => by decide,
    fun h => absurd h (by decide), by decide⟩

theorem witness_DecodedWordReencodesToItself : decodeWord 0x8FEE = .ok (.shl 15 14) := by decide
theorem witness_DecoderAgrees_valid : wordWellFormed 0xFF65 = true := by decide
theorem witness_DecoderAgrees_invalid : wordWellFormed 0xFF66 = false := by decide
theorem witness_InvalidWords_group_0 : decodeWord 0x0FFF = .error (.invalidOpcode 0x0FFF) := by decide
theorem witness_InvalidWords_group_5 : decodeWord 0x5FFF = .error (.invalidOpcode 0x5FFF) := by decide
theorem witness_InvalidWords_group_8 : decodeWord 0x8FFF = .error (.invalidOpcode 0x8FFF) := by decide
theorem witness_InvalidWords_group_9 : decodeWord 0x9001 = .error (.invalidOpcode 0x9001) := by decide
theorem witness_InvalidWords_group_E : decodeWord 0xE000 = .error (.invalidOpcode 0xE000) := by decide
theorem witness_InvalidWords_group_F : decodeWord 0xFFFF = .error (.invalidOpcode 0xFFFF) := by decide

theorem witness_NextIsStep_nothing_scheduled : NextIsStep State.reset State.reset := .inl ⟨rfl, rfl⟩
theorem witness_NextIsStep_scheduled : NextIsStep { State.reset with inputs := [.step, .tick] }
    { State.reset with inputs := [.tick] } := .inr ⟨[.tick], rfl, rfl⟩

theorem witness_StepRunsDecodedInstruction :
    let s := { State.reset.storeBytes 0xFFE [0x60, 0x07] with pc := 0xFFE }
    NextIsStep s s ∧ s.err = none ∧ s.pc ≠ 0xFFF ∧
      decode [s.byteAt s.pc.toNat, s.byteAt (s.pc.toNat + 1)] = .ok (.ldImm 0 7, []) :=
  ⟨.inl ⟨rfl, rfl⟩, by decide, by decide, by decide⟩
theorem witness_HaltedStepChangesNothing : NextIsStep haltedState haltedState ∧ haltedState.Halted :=
  ⟨.inl ⟨rfl, rfl⟩, fun h => Option.some_ne_none _ h⟩
theorem witness_OnlyResetRevivesHaltedCore :
    haltedState.Inv ∧ haltedState.Halted ∧ haltedState.inputs.head? ≠ some .reset ∧
      ∃ t, step haltedState = .next t :=
  ⟨witness_halted_inv, fun h => Option.some_ne_none _ h, by decide, _, rfl⟩
theorem witness_FetchAtTopRaises :
    let s := { State.reset with pc := 0xFFF }
    NextIsStep s s ∧ s.err = none ∧ s.pc = 0xFFF := ⟨.inl ⟨rfl, rfl⟩, rfl, rfl⟩
theorem witness_InvalidWordRaisesInvalidOpcode :
    let s := { State.reset with pc := 0xFFE }
    NextIsStep s s ∧ s.err = none ∧ s.pc ≠ 0xFFF ∧
      wordWellFormed (s.byteAt s.pc.toNat ++ s.byteAt (s.pc.toNat + 1)) = false :=
  ⟨.inl ⟨rfl, rfl⟩, rfl, by decide, by decide⟩
theorem witness_RaisingStepIsPrecise :
    NextIsStep State.reset State.reset ∧ State.reset.err = none ∧
      ∃ t, step State.reset = .next t ∧ t.Halted :=
  ⟨.inl ⟨rfl, rfl⟩, rfl, _, rfl, fun h => Option.some_ne_none _ h⟩
theorem witness_HeldStep_key :
    let s := State.reset.placeWord 0xF30A
    NextIsStep s s ∧ s.err = none ∧ ∃ t, step s = .next t ∧ t.status = .awaitKey :=
  ⟨.inl ⟨rfl, rfl⟩, rfl, _, rfl, by decide⟩
theorem witness_HeldStep_blank :
    let s := blankWait.placeWord 0xD001
    NextIsStep s s ∧ s.err = none ∧ ∃ t, step s = .next t ∧ t.status = .awaitBlank :=
  ⟨.inl ⟨rfl, rfl⟩, rfl, _, rfl, by decide⟩

theorem witness_Tick : ({ haltedState with inputs := [.tick, .step] } : State).inputs = .tick :: [.step] := rfl
theorem witness_TimersStopAtZero :
    ({ State.reset with dt := 2, inputs := [.tick, .tick, .tick, .step] } : State).inputs =
      List.replicate 3 .tick ++ [.step] := rfl
theorem witness_KeypadWrite :
    ({ State.reset with kw := true, inputs := [.keypadWrite 0x8001] } : State).inputs =
      .keypadWrite 0x8001 :: [] := rfl
theorem witness_LoadRom_fits :
    Memory.wf State.reset.cfg State.reset.mem = true ∧
      ({ State.reset with inputs := [.loadRom (List.replicate 3584 0xAB)] } : State).inputs =
        .loadRom (List.replicate 3584 0xAB) :: [] ∧
      (List.replicate 3584 (0xAB : Byte)).length ≤ 3584 :=
  ⟨rfl, rfl, Nat.le_of_eq List.length_replicate⟩
theorem witness_LoadRom_too_large :
    Memory.wf State.reset.cfg State.reset.mem = true ∧
      ({ State.reset with inputs := [.loadRom (List.replicate 3585 0xAB)] } : State).inputs =
        .loadRom (List.replicate 3585 0xAB) :: [] ∧
      3584 < (List.replicate 3585 (0xAB : Byte)).length :=
  ⟨rfl, rfl, Nat.le_of_eq List.length_replicate.symm⟩
theorem witness_Reset : ({ haltedState with inputs := [.reset, .step] } : State).inputs = .reset :: [.step] := rfl

theorem witness_EveryEventKeepsInvariant : State.reset.Inv ∧ ∃ t, step State.reset = .next t :=
  ⟨witness_reset_inv, _, rfl⟩
theorem witness_ConfigurationNeverChanges :
    ∃ t, step { State.reset with inputs := [.reset, .tick] } = .next t ∧ t.inputs = [.tick] := ⟨_, rfl, rfl⟩

theorem witness_WritersOfEachElement_i : ∃ t, exec (.ldI 0xFFF) State.reset = .next t ∧ t.i ≠ State.reset.i :=
  ⟨_, rfl, by decide⟩
theorem witness_WritersOfEachElement_i_increment :
    ∃ t, exec (.loadRegs 15) (allQuirks State.reset) = .next t ∧ t.i ≠ State.reset.i := ⟨_, rfl, by decide⟩
theorem witness_WritersOfEachElement_register :
    ∃ t, exec (.loadRegs 14) (State.reset.setIndex 0x50) = .next t ∧ (14 : Reg) ≠ vf ∧
      t.reg 14 ≠ (State.reset.setIndex 0x50).reg 14 := ⟨_, rfl, by decide, by decide⟩
theorem witness_WritersOfEachElement_pc :
    ∃ t, exec (.jp 0xFFF) State.reset = .next t ∧ t.pc ≠ State.reset.pc := ⟨_, rfl, by decide⟩
theorem witness_WritersOfEachElement_latch :
    ∃ t, exec .ret State.reset = .next t ∧ ¬Keeps State.reset t .latch :=
  ⟨_, rfl, fun h => absurd h.1 (by decide)⟩
theorem witness_WritersOfEachElement_stack :
    ∃ t, exec (.call 0) State.reset = .next t ∧ ¬Keeps State.reset t .stack :=
  ⟨_, rfl, fun h => absurd h.1 (by decide)⟩
theorem witness_WritersOfEachElement_dt :
    ∃ t, exec (.ldDtVx 0) (regs [(0, 1)]) = .next t ∧ t.dt ≠ (regs [(0, 1)]).dt := ⟨_, rfl, by decide⟩
theorem witness_WritersOfEachElement_st :
    ∃ t, exec (.ldStVx 0) (regs [(0, 1)]) = .next t ∧ t.st ≠ (regs [(0, 1)]).st := ⟨_, rfl, by decide⟩
theorem witness_WritersOfEachElement_memory :
    ∃ t, exec (.ldB 0) (regs [(0, 1)]) = .next t ∧ ¬Keeps (regs [(0, 1)]) t .memory :=
  ⟨_, rfl, fun h => absurd (h 2) (by decide)⟩
theorem witness_WritersOfEachElement_screen :
    ∃ t, exec (.drw 0 0 1) (State.reset.setIndex 0x50) = .next t ∧
      ¬Keeps (State.reset.setIndex 0x50) t .screen := ⟨_, rfl, fun h => absurd (h 0 0) (by decide)⟩
theorem witness_WritersOfEachElement_dw :
    ∃ t, exec (.drw 0 0 0) (allQuirks State.reset) = .next t ∧ t.dw ≠ State.reset.dw := ⟨_, rfl, by decide⟩
theorem witness_WritersOfEachElement_keyWait :
    ∃ t, exec (.ldVxK 0) State.reset = .next t ∧ ¬Keeps State.reset t .keyWait :=
  ⟨_, rfl, fun h => absurd h.1 (by decide)⟩
theorem witness_WritersOfEachElement_random :
    ∃ t, exec (.rnd 0 0) State.reset = .next t ∧ ¬Keeps State.reset t .random :=
  ⟨_, rfl, fun h => absurd h.2 (by decide)⟩
theorem witness_WritersOfVF_flag :
    ∃ t, exec (.addReg 0 1) (regs [(0, 0xFF), (1, 1)]) = .next t ∧ t.reg vf ≠ (regs [(0, 0xFF), (1, 1)]).reg vf :=
  ⟨_, rfl, by decide⟩
theorem witness_WritersOfVF_destination :
    ∃ t, exec (.ldImm vf 9) State.reset = .next t ∧ t.reg vf ≠ State.reset.reg vf := ⟨_, rfl, by decide⟩
theorem witness_WritersOfVF_reset_quirk :
    ∃ t, exec (.orReg 0 1) (allQuirks (regs [(15, 1)])) = .next t ∧ t.reg vf ≠ (regs [(15, 1)]).reg vf :=
  ⟨_, rfl, by decide⟩
theorem witness_ProgramCounter_completed :
    ∃ t, exec .ret (stacked 0xFFFF 1) = .next t ∧ t.status = .ok := ⟨_, rfl, by decide⟩
theorem witness_ProgramCounter_offset_jump :
    ∃ t, exec (.jpV0 0x2F0) (allQuirks (regs [(0, 0x10), (2, 4)])) = .next t ∧ t.status = .ok :=
  ⟨_, rfl, by decide⟩
theorem witness_ProgramCounter_raised :
    ∃ t, exec (.jpV0 0xFFF) (regs [(0, 1)]) = .next t ∧ t.status ≠ .ok := ⟨_, rfl, by decide⟩

theorem witness_FinishedProgramIsAFixedPoint :
    NextIsStep finishedState finishedState ∧ finishedState.Finished :=
  ⟨.inl ⟨rfl, rfl⟩, by decide, by decide, by decide⟩
theorem witness_FinishedProgramStaysSafe :
    let s := { finishedState with inputs := [.step, .step] }
    s.Finished ∧ ∀ e ∈ s.inputs, e = .step := ⟨⟨by decide, by decide, by decide⟩, by decide⟩
theorem witness_PlacedInstructionRunsNext : Memory.wf State.reset.cfg State.reset.mem = true := rfl

theorem witness_CheckedMemoryAccess_nothing : Memory.wf State.reset.cfg State.reset.mem = true ∧
    ¬(0 < 0 ∧ 0xFFFF + 0 - 1 > 0xFFF) := by decide
theorem witness_CheckedMemoryAccess_last_byte : ¬(0 < 1 ∧ 0xFFF + 1 - 1 > 0xFFF) := by decide
theorem witness_CheckedMemoryAccess_one_past : 0 < [0xAA, 0xBB].length ∧ 0xFFF + [0xAA, 0xBB].length - 1 > 0xFFF := by
  decide
theorem witness_StoreIsSeen_registers_over_both_bytes :
    Memory.wf selfModify.cfg selfModify.mem = true ∧
      (([0x12, 0x02] : List Byte).length = (1 : Reg).val + 1 ∧
        ∀ k : Reg, k ≤ 1 → ([0x12, 0x02] : List Byte)[k.val]? = some (selfModify.reg k)) ∧
      ∃ t, exec (.storeRegs 1) selfModify = .next t ∧ t.status = .ok ∧ t.pc ≠ 0xFFF ∧
        t.pc.toNat = selfModify.i.toNat + 0 :=
  ⟨rfl, by decide, _, rfl, by decide, by decide, by decide⟩
theorem witness_StoreIsSeen_digits_over_the_second_byte :
    let s := (regs [(0, 0xEA)]).setIndex 0x203
    Memory.wf s.cfg s.mem = true ∧
      ([2, 3, 4] : List Byte).map BitVec.toNat =
        [(s.reg 0).toNat / 100, (s.reg 0).toNat / 10 % 10, (s.reg 0).toNat % 10] ∧
      ∃ t, exec (.ldB 0) s = .next t ∧ t.status = .ok ∧ t.pc ≠ 0xFFF ∧
        t.pc.toNat + 1 = s.i.toNat + 0 ∧ ¬(s.i.toNat ≤ t.pc.toNat ∧ t.pc.toNat < s.i.toNat + 3) :=
  ⟨rfl, by decide, _, rfl, by decide, by decide, by decide, by decide⟩

theorem witness_Call_last_room : (stacked 0 15).sp.val = (15 : Fin 16).val := rfl
theorem witness_Call_full : (stacked 0 16).sp.val = 16 := rfl
theorem witness_Return_one : (stacked 0x206 1).sp.val = (0 : Fin 16).val + 1 := rfl
theorem witness_Return_sixteen : (stacked 0x206 16).sp.val = (15 : Fin 16).val + 1 := rfl
theorem witness_Return_empty : State.reset.sp.val = 0 := rfl
theorem witness_ReturnComesBackBehindCall :
    (stacked 0 15).sp.val < 16 ∧ ∃ t, exec (.call 0x300) (stacked 0 15) = .next t := ⟨by decide, _, rfl⟩
theorem witness_JumpWithOffset_last :
    (0 : Reg).val = (if State.reset.cfg.quirks.jumping then (0xF00 : Addr).toNat / 256 else 0) ∧
      0xFFF = (0xF00 : Addr).toNat + ((regs [(0, 0xFF)]).reg 0).toNat ∧ 0xFFF ≤ 0xFFF := by decide
theorem witness_JumpWithOffset_past :
    (15 : Reg).val = (if (allQuirks State.reset).cfg.quirks.jumping then (0xF01 : Addr).toNat / 256 else 0) ∧
      0x1000 = (0xF01 : Addr).toNat + ((allQuirks (regs [(15, 0xFF)])).reg 15).toNat ∧ 0xFFF < 0x1000 := by decide

theorem witness_BitwiseResults_kept :
    (Instr.xorReg 0 15, fun a b : Bool => a ^^ b) ∈
      [(Instr.orReg 0 15, fun a b => a || b), (.andReg 0 15, fun a b => a && b), (.xorReg 0 15, fun a b => a ^^ b)] ∧
      State.reset.cfg.quirks.vfReset = false ∧ ((0 : Reg) ≠ vf ∨ State.reset.cfg.quirks.vfReset = false) ∧
      7 < 8 := ⟨by simp, by decide, by decide, by decide⟩
theorem witness_BitwiseResults_reset : (allQuirks State.reset).cfg.quirks.vfReset = true := rfl
theorem witness_AddSubtractResults :
    0xFF = ((regs [(0, 0xFF), (1, 1)]).reg 0).toNat ∧ 1 = ((regs [(0, 0xFF), (1, 1)]).reg 1).toNat ∧
      (Instr.addReg 0 1, 0, true) ∈ [(Instr.addReg 0 1, (0xFF + 1) % 256, decide (0xFF + 1 ≥ 256)),
        (.subReg 0 1, (256 + 0xFF - 1) % 256, decide (0xFF ≥ 1)),
        (.subnReg 0 1, (256 + 1 - 0xFF) % 256, decide (1 ≥ 0xFF))] ∧ (0 : Reg) ≠ vf := by decide
theorem witness_ShiftResults :
    0x80 = (if State.reset.cfg.quirks.shifting then ((regs [(0, 3), (1, 0x80)]).reg 0).toNat
      else ((regs [(0, 3), (1, 0x80)]).reg 1).toNat) ∧
      (Instr.shl 0 1, 0, 1) ∈ [(Instr.shr 0 1, 0x80 / 2, 0x80 % 2), (.shl 0 1, 2 * 0x80 % 256, 0x80 / 128)] ∧
      (0 : Reg) ≠ vf := by decide
theorem witness_ShiftResults_in_place :
    3 = (if (allQuirks State.reset).cfg.quirks.shifting then ((regs [(0, 3), (1, 0x80)]).reg 0).toNat
      else ((regs [(0, 3), (1, 0x80)]).reg 1).toNat) := by decide

theorem witness_DecimalStore_last : Memory.wf State.reset.cfg State.reset.mem = true ∧
    (State.reset.setIndex 0xFFD).i.toNat + 2 ≤ 0xFFF := by decide
theorem witness_DecimalStore_past : 0xFFF < (State.reset.setIndex 0xFFE).i.toNat + 2 := by decide
theorem witness_RegisterStore_last : Memory.wf State.reset.cfg State.reset.mem = true ∧
    (State.reset.setIndex 0xFF0).i.toNat + (15 : Reg).val ≤ 0xFFF ∧ (15 : Reg) ≤ 15 := by decide
theorem witness_RegisterStore_past : 0xFFF < (State.reset.setIndex 0xFF1).i.toNat + (15 : Reg).val := by decide
theorem witness_RegisterLoad_last : (State.reset.setIndex 0xFFF).i.toNat + (0 : Reg).val ≤ 0xFFF ∧
    (0 : Reg) < 1 := by decide
theorem witness_RegisterLoad_past : 0xFFF < (State.reset.setIndex 0x1000).i.toNat + (0 : Reg).val := by decide
theorem witness_IndexPastTopAlwaysRaises :
    0xFFF < (State.reset.setIndex 0x1000).i.toNat ∧ (1 : BitVec 4) ≠ 0 ∧
      Instr.drw 0 1 1 ∈ [Instr.ldB 0, .storeRegs 0, .loadRegs 0, .drw 0 1 1] := by decide

theorem witness_RandomResult_supplied :
    ({ State.reset with rndSupply := [0xA7] } : State).rndSupply = 0xA7 :: [] ∧
      (0x0F : Byte).getLsbD 4 = false := by decide
theorem witness_RandomResult_free : State.reset.rndSupply = [] := rfl
theorem witness_KeyWait_first_look : State.reset.kw = false := rfl
theorem witness_KeyWait_no_new_key :
    let s := { State.reset with kw := true, keys := 0x8001, keyPrev := 0x8001 }
    ∀ k, k < 16 → s.keys.getLsbD k = true → s.keyPrev.getLsbD k = true := by decide
theorem witness_KeyWait_new_key :
    let s := { State.reset with kw := true, keys := 0x8001, keyPrev := 0x0001 }
    15 < 16 ∧ s.kw = true ∧ s.keys.getLsbD 15 = true ∧ s.keyPrev.getLsbD 15 = false ∧
      ∀ j, j < 15 → s.keys.getLsbD j = true → s.keyPrev.getLsbD j = true := by decide

theorem witness_Draw_no_rows : ((0 : BitVec 4) = 0 ∨ 0xFFFF + (0 : BitVec 4).toNat ≤ 0x1000) ∧
    (State.reset.cfg.quirks.displayWait = false ∨ State.reset.dw = .idle) := by decide
theorem witness_Draw_last_rows :
    ((15 : BitVec 4) = 0 ∨ (State.reset.setIndex 0xFF1).i.toNat + (15 : BitVec 4).toNat ≤ 0x1000) ∧
      ((allQuirks State.reset).cfg.quirks.displayWait = false ∨ (allQuirks State.reset).dw = .idle) := by decide
theorem witness_Draw_collision :
    let s := { State.reset.setIndex 0x50 with fb := togglePixel State.reset.fb (0, 0) }
    ∃ t, exec (.drw 0 0 1) s = .next t ∧ s.pixelAt 0 0 = true ∧ t.pixelAt 0 0 = false :=
  ⟨_, rfl, by decide, by decide⟩
theorem witness_Draw_no_collision :
    ∃ t, exec (.drw 0 0 0) State.reset = .next t ∧
      ∀ px py, State.reset.pixelAt px py = true → t.pixelAt px py = true :=
  ⟨_, rfl, fun _ _ h => h⟩
theorem witness_DrawRaises : (15 : BitVec 4) ≠ 0 ∧
    0x1000 < (State.reset.setIndex 0xFF2).i.toNat + (15 : BitVec 4).toNat := by decide
theorem witness_DrawWaits :
    ((1 : BitVec 4) = 0 ∨ (blankWait.setIndex 0xFFF).i.toNat + (1 : BitVec 4).toNat ≤ 0x1000) ∧
      blankWait.cfg.quirks.displayWait = true ∧ blankWait.dw = .waitBlank := by decide
theorem witness_DrawingTwiceRestoresScreen :
    ∃ t, exec (.drw 0 1 5) (State.reset.setIndex 0x50) = .next t ∧ t.status = .ok ∧
      t.reg 0 = State.reset.reg 0 ∧ t.reg 1 = State.reset.reg 1 := ⟨_, rfl, by decide, by decide, by decide⟩
theorem witness_NoSecondDraw_draw_waits :
    let s := { blankWait.setIndex 0x50 with fb := togglePixel State.reset.fb (0, 0) }.placeWord 0xD001
    s.cfg.quirks.displayWait = true ∧ s.dw = .waitBlank ∧ s.inputs.head? ≠ some .tick ∧
      s.inputs.head? ≠ some .reset ∧ ∃ t, step s = .next t ∧ t.pixelAt 0 0 = true :=
  ⟨by decide, by decide, by decide, by decide, _, rfl, by decide⟩
theorem witness_NoSecondDrawInTickInterval :
    let s := blankWait.placeWord 0x00E0
    s.cfg.quirks.displayWait = true ∧ s.dw = .waitBlank ∧ s.inputs.head? ≠ some .tick ∧
      s.inputs.head? ≠ some .reset ∧ ∃ t, step s = .next t :=
  ⟨by decide, by decide, by decide, by decide, _, rfl⟩

end Sys2Proof.Tests
end

section
/-! SUPPORT. What one executed instruction can do to the state: the parts and the registers it can write,
the error it can raise, and the inversion lemma `exec_outcome` over all instructions
(spec/10_state.md R41; spec/40_execution_cycle.md R124 to R126). -/

/-! ## The table of writers (spec/10_state.md section 8) -/

namespace Sys2Proof
open Machine

/-- The parts an instruction may change besides the registers, pc, the latch and the status. -/
def Instr.effects (q : Quirks) : Instr → List Part
  | .cls => [.screen]
  | .drw _ _ _ => .screen :: if q.displayWait then [.draw] else []
  | .ret | .call _ => [.stack]
  | .ldI _ | .addI _ | .ldF _ => [.index]
  | .ldB _ => [.memory]
  | .storeRegs _ => .memory :: if q.memoryIncrement then [.index] else []
  | .loadRegs _ => if q.memoryIncrement then [.index] else []
  | .rnd _ _ => [.random]
  | .ldVxK _ => [.keyWait]
  | .ldDtVx _ => [.delay]
  | .ldStVx _ => [.sound]
  | _ => []

/-- The registers an instruction may change, VF as a flag included. -/
def Instr.dests (q : Quirks) : Instr → List Reg
  | .ldImm x _ | .addImm x _ | .rnd x _ | .ldReg x _ | .ldVxDt x | .ldVxK x => [x]
  | .orReg x _ | .andReg x _ | .xorReg x _ => x :: if q.vfReset then [vf] else []
  | .addReg x _ | .subReg x _ | .shr x _ | .subnReg x _ | .shl x _ => [x, vf]
  | .drw _ _ _ => [vf]
  | .loadRegs x => (List.finRange 16).filter (· ≤ x)
  | _ => []

/-- The error an instruction can raise, if it can raise one (spec/60_exceptions.md section 1). -/
def Instr.raisable : Instr → Option ErrorKind
  | .ret => some .stackUnderflow
  | .call _ => some .stackOverflow
  | .jpV0 _ | .ldB _ | .storeRegs _ | .loadRegs _ | .drw _ _ _ => some .memoryOutOfBounds
  | _ => none

end Sys2Proof

namespace Sys2Proof.Machine

/-! ## Frames: combining them, and those of the named updates -/

theorem Keeps.trans {s t u : State} {p : Part} (h₁ : Keeps s t p) (h₂ : Keeps t u p) : Keeps s u p := by
  cases p <;> simp_all [Keeps]

theorem ChangesOnly.mono {ps qs : List Part} {s t : State} (h : ChangesOnly ps s t) (hsub : ps ⊆ qs) :
    ChangesOnly qs s t := fun p hp => h p fun hmem => hp (hsub hmem)

theorem ChangesOnly.trans {ps : List Part} {s t u : State} (h₁ : ChangesOnly ps s t)
    (h₂ : ChangesOnly ps t u) : ChangesOnly ps s u := fun p hp => (h₁ p hp).trans (h₂ p hp)

section
variable (s : State)

theorem changesOnly_refl (ps : List Part) : ChangesOnly ps s s := by
  intro p _
  cases p <;> simp [Keeps]

theorem changesOnly_setV (v : Vector Byte 16) : ChangesOnly [.regs] s { s with v := v } := by
  intro p hp
  cases p <;> simp [Keeps, State.byteAt, State.pixelAt] at hp ⊢

theorem changesOnly_setIndex (a : BitVec 16) : ChangesOnly [.index] s (s.setIndex a) := by
  intro p hp
  cases p <;> simp [Keeps, State.reg, State.byteAt, State.pixelAt] at hp ⊢

theorem changesOnly_setStack (v : Vector (BitVec 16) 16) (n : Fin 17) :
    ChangesOnly [.stack] s { s with stack := v, sp := n } := by
  intro p hp
  cases p <;> simp [Keeps, State.reg, State.byteAt, State.pixelAt] at hp ⊢

theorem changesOnly_setDelay (b : Byte) : ChangesOnly [.delay] s { s with dt := b } := by
  intro p hp
  cases p <;> simp [Keeps, State.reg, State.byteAt, State.pixelAt] at hp ⊢

theorem changesOnly_setSound (b : Byte) : ChangesOnly [.sound] s { s with st := b } := by
  intro p hp
  cases p <;> simp [Keeps, State.reg, State.byteAt, State.pixelAt] at hp ⊢

theorem changesOnly_storeBytes (a : Nat) (bs : List Byte) :
    ChangesOnly [.memory] s (s.storeBytes a bs) := by
  intro p hp
  cases p <;> simp [Keeps, State.reg, State.pixelAt] at hp ⊢

theorem changesOnly_setScreen (fb : Screen) : ChangesOnly [.screen] s { s with fb := fb } := by
  intro p hp
  cases p <;> simp [Keeps, State.reg, State.byteAt] at hp ⊢

theorem changesOnly_setKeyWait (kw : Bool) (ks : BitVec 16) :
    ChangesOnly [.keyWait] s { s with kw := kw, keyPrev := ks } := by
  intro p hp
  cases p <;> simp [Keeps, State.reg, State.byteAt, State.pixelAt] at hp ⊢

theorem changesOnly_rndAdvance : ChangesOnly [.random] s s.rndAdvance := by
  intro p hp
  cases p <;> simp [Keeps, State.reg, State.byteAt, State.pixelAt] at hp ⊢

theorem changesOnly_finish (a : Addr) : ChangesOnly [.pc, .status] s (s.finish a) := by
  intro p hp
  cases p <;> simp [Keeps, State.reg, State.byteAt, State.pixelAt] at hp ⊢

theorem changesOnly_hold (why : Status) : ChangesOnly [.status] s (s.hold why) := by
  intro p hp
  cases p <;> simp [Keeps, State.reg, State.byteAt, State.pixelAt] at hp ⊢

theorem changesOnly_raise (k : ErrorKind) (info : Nat) :
    ChangesOnly [.latch, .status] s (s.raise k info) := by
  intro p hp
  cases p <;> simp [Keeps, State.reg, State.byteAt, State.pixelAt] at hp ⊢

theorem changesOnly_advanceIndex (x : Reg) :
    ChangesOnly (if s.cfg.quirks.memoryIncrement then [.index] else []) s (s.advanceIndex x) := by
  unfold State.advanceIndex
  split
  · exact changesOnly_setIndex s _
  · exact changesOnly_refl s _

theorem changesOnly_drawn (ps : List Position) :
    ChangesOnly (.regs :: .screen :: if s.cfg.quirks.displayWait then [.draw] else []) s (s.drawn ps) := by
  intro p hp
  cases hq : s.cfg.quirks.displayWait <;>
    cases p <;> simp [Keeps, State.byteAt, hq] at hp ⊢

/-! ## Registers kept by the named updates -/

theorem keepsRegsBut_of_v {s t : State} (xs : List Reg) (h : t.v = s.v) : KeepsRegsBut xs s t :=
  fun j _ => State.reg_congr h j

theorem keepsRegsBut_setReg {xs : List Reg} {x : Reg} (hx : x ∈ xs) (b : Byte) :
    KeepsRegsBut xs s (s.setReg x b) :=
  fun _ hj => s.reg_setReg_other (ne_of_mem_of_not_mem hx hj).symm b

theorem keepsRegsBut_setResult {xs : List Reg} {x : Reg} (hx : x ∈ xs) (hv : vf ∈ xs) (r f : Byte) :
    KeepsRegsBut xs s (s.setResult x r f) := fun j hj => by
  have hjv : j ≠ vf := (ne_of_mem_of_not_mem hv hj).symm
  have hjx : j ≠ x := (ne_of_mem_of_not_mem hx hj).symm
  rw [State.reg_setResult, if_neg hjv, if_neg hjx]

theorem keepsRegsBut_setBitwise (x : Reg) (r : Byte) :
    KeepsRegsBut (x :: if s.cfg.quirks.vfReset then [vf] else []) s (s.setBitwise x r) := by
  unfold State.setBitwise
  split
  · exact keepsRegsBut_setResult s (by simp) (by simp) r 0
  · exact keepsRegsBut_setReg s (by simp) r

theorem keepsRegsBut_setRegs {x : Reg} {bs : List Byte} (hlen : bs.length = x.val + 1) :
    KeepsRegsBut ((List.finRange 16).filter (· ≤ x)) s (s.setRegs bs) := fun j hj => by
  have hj : x < j := by simpa using hj
  have hout : bs.length ≤ j.val := hlen ▸ hj
  rw [State.reg_setRegs, List.getD_eq_default _ _ hout]

end

/-! ## The inversion lemma of `exec` -/

/-- What one executed instruction answers: it completes, having changed only what its row lists, or holds,
or raises the one error it can raise. -/
inductive ExecOutcome (i : Instr) (s : State) : State → Prop
  | completed {u : State} (a : Addr) (parts : ChangesOnly (.regs :: i.effects s.cfg.quirks) s u)
      (regs : KeepsRegsBut (i.dests s.cfg.quirks) s u) : ExecOutcome i s (u.finish a)
  | heldForKey (x : Reg) (hi : i = .ldVxK x) :
      ExecOutcome i s ({ s with kw := true, keyPrev := s.keys }.hold .awaitKey)
  | heldForBlank (x y : Reg) (n : BitVec 4) (hi : i = .drw x y n) (hw : s.drawMustWait = true) :
      ExecOutcome i s (s.hold .awaitBlank)
  | raised (k : ErrorKind) (info : Nat) (hi : i.raisable = some k) : ExecOutcome i s (s.raise k info)

/-- The meaning answers a next state, one of the outcomes of the instruction. -/
def Outcomes (i : Instr) (s : State) (r : Result) : Prop := ∃ t, r = .next t ∧ ExecOutcome i s t

section
variable {s : State} {i : Instr}

theorem Outcomes.finish (a : Addr) : Outcomes i s (.next (s.finish a)) :=
  ⟨_, rfl, .completed a (changesOnly_refl s _) (keepsRegsBut_of_v _ rfl)⟩

/-- An instruction that changes its parts and no register, and completes. -/
theorem Outcomes.parts {u : State} {a : Addr} (hu : ChangesOnly (i.effects s.cfg.quirks) s u)
    (hv : u.v = s.v) : Outcomes i s (.next (u.finish a)) :=
  ⟨_, rfl, .completed a (hu.mono (List.subset_cons_self _ _)) (keepsRegsBut_of_v _ hv)⟩

theorem Outcomes.regs {v : Vector Byte 16} (a : Addr)
    (hv : KeepsRegsBut (i.dests s.cfg.quirks) s { s with v := v }) :
    Outcomes i s (.next ({ s with v := v }.finish a)) :=
  ⟨_, rfl, .completed a ((changesOnly_setV s v).mono (by simp)) hv⟩

theorem Outcomes.setReg {x : Reg} (b : Byte) (hx : x ∈ i.dests s.cfg.quirks) :
    Outcomes i s (.next (s.setReg x b).complete) :=
  .regs _ (keepsRegsBut_setReg s hx b)

theorem Outcomes.setResult {x : Reg} (r f : Byte) (hd : i.dests s.cfg.quirks = [x, vf]) :
    Outcomes i s (.next (s.setResult x r f).complete) :=
  .regs _ (keepsRegsBut_setResult s (by simp [hd]) (by simp [hd]) r f)

theorem Outcomes.setBitwise {x : Reg} (r : Byte)
    (hd : i.dests s.cfg.quirks = x :: if s.cfg.quirks.vfReset then [vf] else []) :
    Outcomes i s (.next (s.setBitwise x r).complete) := by
  refine ⟨_, rfl, .completed _ ?_ (hd ▸ keepsRegsBut_setBitwise s x r)⟩
  unfold State.setBitwise
  split
  · exact (changesOnly_setV s _).mono (by simp)
  · exact (changesOnly_setV s _).mono (by simp)

theorem Outcomes.raise {k : ErrorKind} (info : Nat) (hi : i.raisable = some k) :
    Outcomes i s (.next (s.raise k info)) := ⟨_, rfl, .raised k info hi⟩

/-- A checked access: its continuation has the outcomes, and so has the error it may raise. -/
theorem Outcomes.orOutOfBounds {α : Type} {r : Except Nat α} {k : α → Result}
    (hi : i.raisable = some .memoryOutOfBounds) (hk : ∀ a, r = .ok a → Outcomes i s (k a)) :
    Outcomes i s (s.orOutOfBounds r k) := by
  cases r with
  | ok a => exact hk a rfl
  | error info => exact .raise info hi

theorem memWrite_eq_ok {a : Nat} {bs : List Byte} {t : State} (h : s.memWrite a bs = .ok t) :
    t = s.storeBytes a bs := by
  obtain ⟨-, hr⟩ | ⟨-, hr⟩ := s.memWrite_cases a bs
  · exact (Except.ok.inj (hr.symm.trans h)).symm
  · exact nomatch hr.symm.trans h

theorem length_of_memRead_eq_ok {a n : Nat} {bs : List Byte} (h : s.memRead a n = .ok bs) :
    bs.length = n := by
  obtain ⟨-, hr⟩ | ⟨-, hr⟩ := s.memRead_cases a n
  · rw [← Except.ok.inj (hr.symm.trans h), List.length_map, List.length_range]
  · exact nomatch hr.symm.trans h

end

section
variable (s : State)

theorem outcomes_ret : Outcomes .ret s (execRet s) := by
  unfold execRet
  obtain ⟨_, hp⟩ | ⟨-, hp⟩ := s.pop_cases <;> rw [hp]
  · exact .parts (changesOnly_setStack s s.stack _) rfl
  · exact .raise 0 rfl

theorem outcomes_call (nnn : Addr) : Outcomes (.call nnn) s (execCall nnn s) := by
  unfold execCall
  obtain ⟨_, hp⟩ | ⟨-, hp⟩ := s.push_cases (s.npc.setWidth 16) <;> rw [hp]
  · exact .parts (changesOnly_setStack s _ _) rfl
  · exact .raise 0 rfl

theorem outcomes_jpV0 (nnn : Addr) : Outcomes (.jpV0 nnn) s (execJpV0 nnn s) := by
  unfold execJpV0
  split
  · exact .raise _ rfl
  · exact .finish _

theorem outcomes_rnd (x : Reg) (kk : Byte) : Outcomes (.rnd x kk) s (execRnd x kk s) :=
  ⟨_, rfl, .completed _
    (((changesOnly_rndAdvance s).mono (by simp [Instr.effects])).trans
      ((changesOnly_setV s.rndAdvance _).mono (by simp)))
    (keepsRegsBut_setReg s.rndAdvance (by simp [Instr.dests]) _)⟩

/-- Everything DRW can do: raise at the bounds check, hold for the tick, or draw (decision D20). -/
theorem execDrw_cases (x y : Reg) (n : BitVec 4) :
    ((0 < n.toNat ∧ 0xFFF < s.i.toNat + n.toNat - 1) ∧
      execDrw x y n s = .next (s.raise .memoryOutOfBounds (max s.i.toNat 0x1000))) ∨
    (n.toNat = 0 ∨ s.i.toNat + n.toNat ≤ 0x1000) ∧
      (s.drawMustWait = true ∧ execDrw x y n s = .next (s.hold .awaitBlank) ∨
        s.drawMustWait = false ∧ execDrw x y n s = .next (s.drawn (s.drawPixels x y
          ((List.range n.toNat).map fun k => s.byteAt (s.i.toNat + k)))).complete) := by
  unfold execDrw
  obtain ⟨hin, hr⟩ | ⟨hout, hr⟩ := s.memRead_cases s.i.toNat n.toNat <;> rw [hr]
  · refine .inr ⟨hin, ?_⟩
    rw [State.orOutOfBounds_ok]
    cases s.drawMustWait
    · exact .inr ⟨rfl, rfl⟩
    · exact .inl ⟨rfl, rfl⟩
  · exact .inl ⟨hout, rfl⟩

theorem outcomes_drw (x y : Reg) (n : BitVec 4) : Outcomes (.drw x y n) s (execDrw x y n s) := by
  obtain ⟨-, h⟩ | ⟨-, ⟨hw, h⟩ | ⟨-, h⟩⟩ := execDrw_cases s x y n <;> rw [h]
  · exact .raise _ rfl
  · exact ⟨_, rfl, .heldForBlank x y n rfl hw⟩
  · exact ⟨_, rfl, .completed _ (changesOnly_drawn s _)
      (keepsRegsBut_setReg _ (by simp [Instr.dests]) _)⟩

theorem outcomes_ldVxK (x : Reg) : Outcomes (.ldVxK x) s (execLdVxK x s) := by
  have hheld : Outcomes (.ldVxK x) s (.next ({ s with kw := true, keyPrev := s.keys }.hold .awaitKey)) :=
    ⟨_, rfl, .heldForKey x rfl⟩
  unfold execLdVxK
  split
  · rename_i hkw
    split
    · rwa [← hkw] at hheld
    · exact ⟨_, rfl, .completed _
        (((changesOnly_setKeyWait s false s.keyPrev).mono (by simp [Instr.effects])).trans
          ((changesOnly_setV _ _).mono (by simp)))
        (keepsRegsBut_setReg { s with kw := false } (by simp [Instr.dests]) _)⟩
  · exact hheld

theorem outcomes_ldB (x : Reg) : Outcomes (.ldB x) s (execLdB x s) := by
  refine .orOutOfBounds rfl fun t ht => ?_
  rw [memWrite_eq_ok ht]
  exact .parts (changesOnly_storeBytes s _ _) rfl

theorem outcomes_storeRegs (x : Reg) : Outcomes (.storeRegs x) s (execStoreRegs x s) := by
  refine .orOutOfBounds rfl fun t ht => ?_
  rw [memWrite_eq_ok ht]
  refine .parts ?_ (by simp)
  exact ((changesOnly_storeBytes s _ _).mono (by simp [Instr.effects])).trans
    ((changesOnly_advanceIndex _ x).mono (List.subset_cons_self _ _))

theorem outcomes_loadRegs (x : Reg) : Outcomes (.loadRegs x) s (execLoadRegs x s) := by
  refine .orOutOfBounds rfl fun bytes hb => ⟨_, rfl, .completed _ ?_ fun j hj => ?_⟩
  · exact ((changesOnly_setV s _).mono (by simp)).trans
      ((changesOnly_advanceIndex (s.setRegs bytes) x).mono (List.subset_cons_self _ _))
  · rw [State.reg_congr (State.advanceIndex_v _ x)]
    exact keepsRegsBut_setRegs s (length_of_memRead_eq_ok hb) j hj

/-- Everything an instruction can do: in each state it answers a next state, one of its outcomes. -/
theorem outcomes_exec (i : Instr) : Outcomes i s (exec i s) := by
  cases i with
  | cls => exact .parts (changesOnly_setScreen s _) rfl
  | ret => exact outcomes_ret s
  | jp nnn => exact .finish nnn
  | call nnn => exact outcomes_call s nnn
  | seImm | sneImm | seReg | sneReg | skp | sknp => exact .finish _
  | ldImm | addImm | ldReg | ldVxDt => exact .setReg _ (by simp [Instr.dests])
  | orReg | andReg | xorReg => exact .setBitwise _ rfl
  | addReg | subReg | shr | subnReg | shl => exact .setResult _ _ rfl
  | ldI | addI | ldF => exact .parts (changesOnly_setIndex s _) rfl
  | jpV0 nnn => exact outcomes_jpV0 s nnn
  | rnd x kk => exact outcomes_rnd s x kk
  | drw x y n => exact outcomes_drw s x y n
  | ldVxK x => exact outcomes_ldVxK s x
  | ldDtVx => exact .parts (changesOnly_setDelay s _) rfl
  | ldStVx => exact .parts (changesOnly_setSound s _) rfl
  | ldB x => exact outcomes_ldB s x
  | storeRegs x => exact outcomes_storeRegs s x
  | loadRegs x => exact outcomes_loadRegs s x

end

theorem exec_outcome {s t : State} {i : Instr} (h : exec i s = .next t) : ExecOutcome i s t := by
  obtain ⟨u, hu, ho⟩ := outcomes_exec s i
  cases hu.symm.trans h
  exact ho

/-! ## The table of writers, read by element -/

section
variable {q : Quirks} {i : Instr}

theorem effects_subset : i.effects q ⊆ [.index, .stack, .delay, .sound, .memory, .screen, .draw, .keyWait,
    .random] := by
  cases i <;> simp [Instr.effects] <;> split <;> simp

theorem latch_notMem_effects : .latch ∉ i.effects q := fun h => absurd (effects_subset h) (by decide)

theorem mem_dests {j : Reg} (hj : j ≠ vf) (h : j ∈ i.dests q) :
    (∃ kk, i ∈ [.ldImm j kk, .addImm j kk, .rnd j kk]) ∨
    (∃ y, i ∈ [.ldReg j y, .orReg j y, .andReg j y, .xorReg j y, .addReg j y, .subReg j y, .shr j y,
      .subnReg j y, .shl j y]) ∨
    i = .ldVxDt j ∨ i = .ldVxK j ∨ ∃ x, j ≤ x ∧ i = .loadRegs x := by
  cases i <;> simp_all [Instr.dests]

theorem index_mem_effects (h : .index ∈ i.effects q) :
    (∃ nnn, i = .ldI nnn) ∨ (∃ x, i = .addI x ∨ i = .ldF x) ∨
      q.memoryIncrement = true ∧ ∃ x, i = .storeRegs x ∨ i = .loadRegs x := by
  cases i <;> simp_all [Instr.effects]

theorem stack_mem_effects (h : .stack ∈ i.effects q) : i = .ret ∨ ∃ nnn, i = .call nnn := by
  cases i <;> simp_all [Instr.effects]

theorem delay_mem_effects (h : .delay ∈ i.effects q) : ∃ x, i = .ldDtVx x := by
  cases i <;> simp_all [Instr.effects]

theorem sound_mem_effects (h : .sound ∈ i.effects q) : ∃ x, i = .ldStVx x := by
  cases i <;> simp_all [Instr.effects]

theorem memory_mem_effects (h : .memory ∈ i.effects q) : ∃ x, i = .ldB x ∨ i = .storeRegs x := by
  cases i <;> simp_all [Instr.effects]

theorem screen_mem_effects (h : .screen ∈ i.effects q) : i = .cls ∨ ∃ x y n, i = .drw x y n := by
  cases i <;> simp_all [Instr.effects]

theorem draw_mem_effects (h : .draw ∈ i.effects q) :
    q.displayWait = true ∧ ∃ x y n, i = .drw x y n := by
  cases i <;> simp_all [Instr.effects]

theorem keyWait_mem_effects (h : .keyWait ∈ i.effects q) : ∃ x, i = .ldVxK x := by
  cases i <;> simp_all [Instr.effects]

theorem random_mem_effects (h : .random ∈ i.effects q) : ∃ x kk, i = .rnd x kk := by
  cases i <;> simp_all [Instr.effects]

theorem raisable_ne_none (h : i.raisable ≠ none) :
    i = .ret ∨ (∃ nnn, i = .call nnn ∨ i = .jpV0 nnn) ∨
      (∃ x, i = .ldB x ∨ i = .storeRegs x ∨ i = .loadRegs x) ∨ ∃ x y n, i = .drw x y n := by
  cases i <;> simp_all [Instr.raisable]

end

/-! ## What an executed instruction leaves unchanged -/

section
variable {s t : State} {i : Instr}

theorem exec_changesOnly (h : exec i s = .next t) :
    ChangesOnly ([.regs, .pc, .latch, .status] ++ i.effects s.cfg.quirks) s t := by
  cases exec_outcome h with
  | completed a parts _ =>
    have hsub := List.cons_subset_cons .regs
      (List.subset_append_right [.pc, .latch, .status] (i.effects s.cfg.quirks))
    exact (parts.mono hsub).trans ((changesOnly_finish _ a).mono (by simp))
  | heldForKey x hi =>
    subst hi
    exact ((changesOnly_setKeyWait s _ _).mono (by simp [Instr.effects])).trans
      ((changesOnly_hold _ _).mono (by simp))
  | heldForBlank => exact (changesOnly_hold s _).mono (by simp)
  | raised k info => exact (changesOnly_raise s k info).mono (by simp)

theorem exec_keepsRegsBut (h : exec i s = .next t) : KeepsRegsBut (i.dests s.cfg.quirks) s t := by
  cases exec_outcome h with
  | completed a _ regs => exact fun j hj => (State.reg_congr (State.finish_v _ a) j).trans (regs j hj)
  | heldForKey | heldForBlank | raised => exact keepsRegsBut_of_v _ rfl

theorem exec_keeps_pc (h : exec i s = .next t) (hst : t.status ≠ .ok) : t.pc = s.pc := by
  cases exec_outcome h with
  | completed => exact absurd rfl hst
  | heldForKey | heldForBlank | raised => rfl

/-- Errors are entered only by an instruction that can raise, and then reported. -/
theorem exec_keeps_latch (h : exec i s = .next t) :
    Keeps s t .latch ∨ t.status = .error ∧ i.raisable ≠ none := by
  cases exec_outcome h with
  | completed a parts _ =>
    have hu : Keeps s _ .latch := parts .latch (by simp [latch_notMem_effects])
    exact .inl (hu.trans (changesOnly_finish _ a .latch (by simp)))
  | heldForKey | heldForBlank => exact .inl ⟨rfl, rfl⟩
  | raised k info hi => exact .inr ⟨rfl, by simp [hi]⟩

/-- A part whose value differs after an instruction is one of the instruction's parts. -/
theorem mem_effects_of_not_keeps {p : Part} (h : exec i s = .next t) (hk : ¬Keeps s t p)
    (hp : p ∉ [.regs, .pc, .latch, .status]) : p ∈ i.effects s.cfg.quirks := by
  by_contra hmem
  exact hk (exec_changesOnly h p (by rw [List.mem_append]; exact not_or.2 ⟨hp, hmem⟩))

theorem exec_drw_dw {x y : Reg} {n : BitVec 4} (h : exec (.drw x y n) s = .next t) (hdw : t.dw ≠ s.dw) :
    t.dw = .waitBlank := by
  obtain ⟨-, hr⟩ | ⟨-, ⟨-, hr⟩ | ⟨-, hr⟩⟩ := execDrw_cases s x y n <;> cases hr.symm.trans h
  · exact absurd rfl hdw
  · exact absurd rfl hdw
  · rw [State.complete_dw, State.drawn_dw] at hdw ⊢
    split at hdw
    · exact if_pos ‹_›
    · exact absurd rfl hdw

end

/-- Settles O22: each clause reads one row of the table of writers, which `exec_outcome` ties to `exec`. -/
theorem writersOfEachElement : Obligations.WritersOfEachElement := by
  intro i s t h
  have hmem {p : Part} (hk : ¬Keeps s t p) (hp : p ∉ [.regs, .pc, .latch, .status]) :
      p ∈ i.effects s.cfg.quirks := mem_effects_of_not_keeps h hk hp
  refine ⟨?parts, ?regs, ?index, ?stack, ?delay, ?sound, ?memory, ?screen, ?draw, ?keyWait, ?random, ?pc,
    ?latch⟩
  case parts =>
    exact (exec_changesOnly h).mono
      (List.append_subset.2 ⟨by simp, List.Subset.trans effects_subset (by simp)⟩)
  case regs =>
    intro j hj hne
    exact mem_dests hj (not_imp_comm.1 (exec_keepsRegsBut h j) hne)
  case index => exact fun hne => index_mem_effects (hmem (p := .index) hne (by decide))
  case stack => exact fun hk => stack_mem_effects (hmem hk (by decide))
  case delay => exact fun hne => delay_mem_effects (hmem (p := .delay) hne (by decide))
  case sound => exact fun hne => sound_mem_effects (hmem (p := .sound) hne (by decide))
  case memory => exact fun hk => memory_mem_effects (hmem hk (by decide))
  case screen => exact fun hk => screen_mem_effects (hmem hk (by decide))
  case draw =>
    intro hne
    obtain ⟨hq, x, y, n, rfl⟩ := draw_mem_effects (hmem (p := .draw) hne (by decide))
    exact ⟨hq, exec_drw_dw h hne, x, y, n, rfl⟩
  case keyWait => exact fun hk => keyWait_mem_effects (hmem hk (by decide))
  case random => exact fun hk => random_mem_effects (hmem hk (by decide))
  case pc => exact fun hne => by_contra fun hst => hne (exec_keeps_pc h hst)
  case latch =>
    intro hk
    obtain ⟨hst, hr⟩ := (exec_keeps_latch h).resolve_left hk
    exact ⟨hst, raisable_ne_none hr⟩

end Sys2Proof.Machine
end

section
/-! SUPPORT. What LD B,Vx and LD [I],Vx leave in memory: the bytes each stores, and memory after a store that
completes (spec/20_memory.md R66, R71; spec/43_index_and_memory.md R203, R204). -/

namespace Sys2Proof.Machine

section
variable {s t : State}

/-! ## The bytes stored -/

theorem map_toNat_bcdDigits (b : Byte) : (bcdDigits b).map BitVec.toNat =
    [b.toNat / 100, b.toNat / 10 % 10, b.toNat % 10] := by
  have := b.isLt
  simp only [bcdDigits, List.map_cons, List.map_nil, BitVec.toNat_ofNat, List.cons.injEq, and_true]
  omega

theorem eq_bcdDigits {bs : List Byte} {b : Byte}
    (h : bs.map BitVec.toNat = [b.toNat / 100, b.toNat / 10 % 10, b.toNat % 10]) : bs = bcdDigits b :=
  List.map_injective_iff.2 (fun _ _ => BitVec.eq_of_toNat_eq) (h.trans (map_toNat_bcdDigits b).symm)

theorem eq_regsUpTo {bs : List Byte} {x : Reg} (hlen : bs.length = x.val + 1)
    (hreg : ∀ k : Reg, k ≤ x → bs[k.val]? = some (s.reg k)) : bs = s.regsUpTo x := by
  apply List.ext_getElem?
  intro n
  rw [State.regsUpTo_getElem?]
  split
  · next hn => exact hreg ⟨n, by omega⟩ (Nat.le_of_lt_succ hn)
  · next hn => exact List.getElem?_eq_none (by omega)

/-! ## Memory after a store that completes -/

/-- A checked store whose Step ends with OK was in bounds, and its continuation ran from the stored state. -/
theorem memWrite_completed {a : Nat} {bs : List Byte} {k : State → Result}
    (h : s.orOutOfBounds (s.memWrite a bs) k = .next t) (hst : t.status = .ok) :
    (bs.length = 0 ∨ a + bs.length ≤ 0x1000) ∧ k (s.storeBytes a bs) = .next t := by
  obtain ⟨hb, hw⟩ | ⟨-, hw⟩ := s.memWrite_cases a bs <;> rw [hw] at h
  · exact ⟨hb, h⟩
  · cases h
    cases hst

/-- The bytes of `t` are those of `s` with `bs` stored from I on, an access inside memory. -/
def StoredAtIndex (bs : List Byte) (s t : State) : Prop :=
  s.i.toNat + bs.length ≤ 0x1000 ∧ ∀ a, t.byteAt a = (s.storeBytes s.i.toNat bs).byteAt a

theorem exec_ldB_storedAtIndex {x : Reg} (h : exec (.ldB x) s = .next t) (hst : t.status = .ok) :
    StoredAtIndex (bcdDigits (s.reg x)) s t := by
  obtain ⟨hb, ht⟩ := memWrite_completed h hst
  cases ht
  exact ⟨hb.resolve_left (by simp [bcdDigits]), State.byteAt_congr rfl rfl⟩

theorem exec_storeRegs_storedAtIndex {x : Reg} (h : exec (.storeRegs x) s = .next t)
    (hst : t.status = .ok) : StoredAtIndex (s.regsUpTo x) s t := by
  obtain ⟨hb, ht⟩ := memWrite_completed h hst
  cases ht
  exact ⟨hb.resolve_left (by simp), State.byteAt_congr (by simp) (by simp)⟩

namespace StoredAtIndex
variable {bs : List Byte}

theorem byteAt_inside (h : StoredAtIndex bs s t) (hm : Memory.wf s.cfg s.mem = true) {k : Nat}
    (hk : k < bs.length) : t.byteAt (s.i.toNat + k) = bs[k] :=
  (h.2 _).trans (s.byteAt_storeBytes_inside hm h.1 hk)

theorem byteAt_outside (h : StoredAtIndex bs s t) {a : Nat}
    (ha : ¬(s.i.toNat ≤ a ∧ a < s.i.toNat + bs.length)) : t.byteAt a = s.byteAt a :=
  (h.2 a).trans (s.byteAt_storeBytes_outside ha)

end StoredAtIndex
end

/-- Settles O29: the next fetch reads the memory of the completed store at pc and pc + 1, and each of those two
addresses is inside the bytes stored or outside them. -/
theorem storeIsSeenByNextFetch : Obligations.StoreIsSeenByNextFetch := by
  intro s t x i stored hm hi h hst hpc
  have hs : StoredAtIndex stored s t := by
    obtain ⟨rfl, hdigits⟩ | ⟨rfl, hlen, hreg⟩ := hi
    · exact eq_bcdDigits hdigits ▸ exec_ldB_storedAtIndex h hst
    · exact eq_regsUpTo hlen hreg ▸ exec_storeRegs_storedAtIndex h hst
  refine ⟨_, _, t.fetchWord_ok hpc, fun a b hab => ?_⟩
  have hb : b = t.byteAt a := by
    obtain ⟨rfl, rfl⟩ | ⟨rfl, rfl⟩ := hab <;> rfl
  subst hb
  constructor
  · rintro k hk rfl
    exact hs.byteAt_inside hm hk
  · exact hs.byteAt_outside

end Sys2Proof.Machine
end

section
/-! SUPPORT. What taking an event off the schedule changes, and what KeypadWrite changes
(spec/40_execution_cycle.md R120, R128). -/

namespace Sys2Proof.Machine

section
variable (s : State)

theorem changesOnly_setInputs (es : List HostEvent) : ChangesOnly [.schedule] s { s with inputs := es } := by
  intro p hp
  cases p <;> simp [Keeps, State.reg, State.byteAt, State.pixelAt] at hp ⊢

theorem changesOnly_keypadWrite (ks : BitVec 16) : ChangesOnly [.keys] s (s.keypadWrite ks) := by
  intro p hp
  cases p <;> simp [Keeps, State.reg, State.byteAt, State.pixelAt] at hp ⊢

end

/-- What an event changes once it is taken off the schedule, it changes of the state before, the schedule
aside. -/
theorem ChangesOnly.of_taken {ps : List Part} {s t : State} {rest : List HostEvent}
    (h : ChangesOnly ps { s with inputs := rest } t) (hp : .schedule ∈ ps) : ChangesOnly ps s t :=
  ((changesOnly_setInputs s rest).mono (by simpa using hp)).trans h

/-- Settles O16: the event is taken off the schedule, then only the snapshot is replaced. -/
theorem keypadWriteSetsSnapshotOnly : Obligations.KeypadWriteSetsSnapshotOnly := by
  intro s ks rest h
  have hwritten : ChangesOnly [.keys, .schedule] { s with inputs := rest } _ :=
    (changesOnly_keypadWrite _ ks).mono (by simp)
  exact ⟨_, step_cons s h, State.keypadWrite_keys _ ks, State.keypadWrite_inputs _ ks,
    hwritten.of_taken (by simp)⟩

end Sys2Proof.Machine
end

section
/-! SUPPORT. Decoding an encoded word, for every instruction (spec/30_encoding.md R92, R94, R95). -/

namespace Sys2Proof

/-- The decoder inverts the encoder: an instruction is told by its whole word, by its high nibble, or within
group 8 by the low nibble and within the groups E and F by the low byte (R94). -/
theorem decodeWord_encodeWord (i : Instr) : decodeWord (encodeWord i) = .ok i := by
  cases i with
  | cls | ret => rfl
  | jp | call | seImm | sneImm | seReg | ldImm | addImm | sneReg | ldI | jpV0 | rnd | drw =>
    simp [encodeWord, decodeWord]
  | ldReg | orReg | andReg | xorReg | addReg | subReg | shr | subnReg | shl =>
    simp [encodeWord, decodeWord, decodeGroup8]
  | skp | sknp => simp [encodeWord, decodeWord, decodeGroupE]
  | ldVxDt | ldVxK | ldDtVx | ldStVx | addI | ldF | ldB | storeRegs | loadRegs =>
    simp [encodeWord, decodeWord, decodeGroupF]

end Sys2Proof
end

section
/-! SUPPORT. How a control flow instruction ends: the frame of an error entry, where a skip lands, and what
push and pop do at each depth of the stack (spec/41_control_flow.md R150 to R158). -/

namespace Sys2Proof.Machine

section
variable (s : State)

theorem raised_raise (k : ErrorKind) (info : Nat) : Raised k info s (s.raise k info) :=
  ⟨rfl, rfl, rfl, changesOnly_raise s k info⟩

/-! ## Where pc goes -/

theorem State.toNat_npc : s.npc.toNat = (s.pc.toNat + 2) % 4096 := BitVec.toNat_add s.pc 2

theorem State.toNat_skipPc : s.skipPc.toNat = (s.pc.toNat + 4) % 4096 :=
  calc s.skipPc.toNat
    _ = (s.npc.toNat + 2) % 4096 := BitVec.toNat_add s.npc 2
    _ = (s.pc.toNat + 4) % 4096 := by rw [s.toNat_npc, Nat.mod_add_mod]

theorem movedBy_skipIf (taken : Bool) : MovedBy (if taken then 4 else 2) s (s.skipIf taken) := by
  cases taken
  · exact ⟨s.toNat_npc, rfl⟩
  · exact ⟨s.toNat_skipPc, rfl⟩

theorem changesOnly_skipIf (taken : Bool) : ChangesOnly [.pc, .status] s (s.skipIf taken) :=
  changesOnly_finish s _

theorem changesOnly_setStack_finish (v : Vector (BitVec 16) 16) (n : Fin 17) (a : Addr) :
    ChangesOnly [.stack, .pc, .status] s ({ s with stack := v, sp := n }.finish a) :=
  ((changesOnly_setStack s v n).mono (by simp)).trans ((changesOnly_finish _ a).mono (by simp))

/-! ## The address stack, by the number of entries in use -/

variable {s}

theorem State.push_of_sp_eq {k : Fin 16} (h : s.sp.val = k.val) (a : BitVec 16) :
    s.push a = some { s with stack := s.stack.set k a, sp := k.succ } := by
  obtain ⟨_, hp⟩ | ⟨hfull, -⟩ := s.push_cases a
  · simp only [hp, h, Fin.succ]
  · omega

theorem State.push_of_full (h : s.sp.val = 16) (a : BitVec 16) : s.push a = none := by
  obtain ⟨hroom, -⟩ | ⟨-, hp⟩ := s.push_cases a
  · omega
  · exact hp

theorem State.pop_of_sp_eq {k : Fin 16} (h : s.sp.val = k.val + 1) :
    s.pop = some (s.stack[k], { s with sp := k.castSucc }) := by
  obtain ⟨_, hp⟩ | ⟨hempty, -⟩ := s.pop_cases
  · simp only [hp, h, Nat.add_sub_cancel]
    rfl
  · omega

theorem State.pop_of_empty (h : s.sp.val = 0) : s.pop = none := by
  obtain ⟨hsome, -⟩ | ⟨-, hp⟩ := s.pop_cases
  · omega
  · exact hp

/-! ## CALL and RET, by the number of entries in use -/

theorem exec_call_of_sp_eq {k : Fin 16} (h : s.sp.val = k.val) (nnn : Addr) :
    exec (.call nnn) s =
      .next ({ s with stack := s.stack.set k (s.npc.setWidth 16), sp := k.succ }.finish nnn) := by
  show execCall nnn s = _
  rw [execCall, State.push_of_sp_eq h]

theorem exec_call_of_full (h : s.sp.val = 16) (nnn : Addr) :
    exec (.call nnn) s = .next (s.raise .stackOverflow 0) := by
  show execCall nnn s = _
  rw [execCall, State.push_of_full h]

theorem exec_ret_of_sp_eq {k : Fin 16} (h : s.sp.val = k.val + 1) :
    exec .ret s = .next ({ s with sp := k.castSucc }.finish ((s.stack[k]).extractLsb' 0 12)) := by
  show execRet s = _
  rw [execRet, State.pop_of_sp_eq h]

theorem exec_ret_of_empty (h : s.sp.val = 0) : exec .ret s = .next (s.raise .stackUnderflow 0) := by
  show execRet s = _
  rw [execRet, State.pop_of_empty h]

end

/-- Settles O31: the stack has room for entry `sp`, or all sixteen entries are in use and nothing is pushed. -/
theorem callPushesReturnAddress : Obligations.CallPushesReturnAddress := by
  refine fun nnn => ⟨decodeWord_encodeWord (.call nnn), fun s => ⟨fun k hk => ?room, fun hfull => ?full⟩⟩
  case room =>
    refine ⟨_, exec_call_of_sp_eq hk nnn, ?pushed, rfl, ?others, rfl, rfl,
      changesOnly_setStack_finish s _ _ nnn⟩
    case pushed =>
      have hentry : (s.npc.setWidth 16).toNat = (s.pc.toNat + 2) % 4096 :=
        (BitVec.toNat_setWidth_of_le (by decide)).trans s.toNat_npc
      simpa using hentry
    case others =>
      intro j hj
      have hne : k.val ≠ j.val := fun e => hj (Fin.ext e.symm)
      simp [hne]
  case full => exact ⟨_, exec_call_of_full hfull nnn, rfl, raised_raise s _ 0⟩

/-- Settles O32: there is a top entry to pop, or the stack is empty. -/
theorem returnPopsAddress : Obligations.ReturnPopsAddress := by
  refine ⟨decodeWord_encodeWord .ret, fun s => ⟨fun k hk => ?popped, fun hempty => ?empty⟩⟩
  case popped =>
    exact ⟨_, exec_ret_of_sp_eq hk, by simp, rfl, rfl, rfl, changesOnly_setStack_finish s _ _ _⟩
  case empty => exact ⟨_, exec_ret_of_empty hempty, rfl, raised_raise s _ 0⟩

/-- Settles O30: JP completes at its target. -/
theorem jumpGoesToTarget : Obligations.JumpGoesToTarget := fun nnn =>
  ⟨decodeWord_encodeWord (.jp nnn), fun s => ⟨s.finish nnn, rfl, rfl, rfl, changesOnly_finish s nnn⟩⟩

/-- Settles O35: SE skips on the comparison of the two registers, SNE on its negation. -/
theorem skipsOnRegisters : Obligations.SkipsOnRegisters := by
  refine fun x y => ⟨decodeWord_encodeWord (.seReg x y), decodeWord_encodeWord (.sneReg x y),
    fun s => ⟨?se, ?sne⟩⟩
  case se =>
    exact ⟨_, rfl, by simpa using movedBy_skipIf s (s.reg x == s.reg y), changesOnly_skipIf s _⟩
  case sne =>
    exact ⟨_, rfl, by simpa using movedBy_skipIf s (s.reg x != s.reg y), changesOnly_skipIf s _⟩

end Sys2Proof.Machine
end

section
/-! SUPPORT. How an instruction that writes registers only ends: it completes with `pc <- npc`
(spec/42_register_alu.md R170 to R180). -/

namespace Sys2Proof.Machine

section
variable (s : State)

theorem movedBy_complete : MovedBy 2 s s.complete := ⟨s.toNat_npc, rfl⟩

theorem changesOnly_setV_complete (v : Vector Byte 16) :
    ChangesOnly [.regs, .pc, .status] s { s with v := v }.complete :=
  ((changesOnly_setV s v).mono (by simp)).trans ((changesOnly_finish _ _).mono (by simp))

end

/-- Settles O37: the instruction is the write of kk to Vx, then completion, which keeps every register. -/
theorem loadImmediateResult : Obligations.LoadImmediateResult := by
  refine fun x kk => ⟨decodeWord_encodeWord (.ldImm x kk), fun s =>
    ⟨(s.setReg x kk).complete, rfl, ?loaded, ?others, ?moved, changesOnly_setV_complete s _⟩⟩
  case loaded => exact s.reg_setReg_same x kk
  case others => exact keepsRegsBut_setReg s (by simp) kk
  case moved => exact movedBy_complete (s.setReg x kk)

end Sys2Proof.Machine
end

section
/-! SUPPORT. How an instruction that writes I ends, and what LD [I],Vx and LD Vx,[I] answer on each side of the
bounds check (spec/20_memory.md R66, R73; spec/43_index_and_memory.md R200 to R205). -/

namespace Sys2Proof.Machine

section
variable {s : State} {x : Reg}

/-! ## pc and I after an instruction that writes I -/

theorem movedBy_complete_of_pc {t : State} (h : t.pc = s.pc) : MovedBy 2 s t.complete :=
  ⟨(congrArg BitVec.toNat (State.npc_congr h)).trans s.toNat_npc, rfl⟩

theorem changesOnly_setIndex_complete (s : State) (a : BitVec 16) :
    ChangesOnly [.index, .pc, .status] s (s.setIndex a).complete :=
  ((changesOnly_setIndex s a).mono (by simp)).trans ((changesOnly_finish _ _).mono (by simp))

theorem changesOnly_advanceIndex_complete :
    ChangesOnly [.index, .pc, .status] s (s.advanceIndex x).complete := by
  have hindex : (if s.cfg.quirks.memoryIncrement then [Part.index] else []) ⊆ [.index, .pc, .status] := by
    split <;> simp
  exact ((changesOnly_advanceIndex s x).mono hindex).trans ((changesOnly_finish _ _).mono (by simp))

/-- I after a move that ends inside memory is 0x1000 at most, so its 16 bits do not wrap. -/
theorem State.toNat_advanceIndex_i (h : s.i.toNat + x.val ≤ 0xFFF) :
    (s.advanceIndex x).i.toNat =
      if s.cfg.quirks.memoryIncrement then s.i.toNat + x.val + 1 else s.i.toNat := by
  rw [State.advanceIndex_i]
  split
  · rw [BitVec.toNat_add, BitVec.toNat_ofNat]
    omega
  · rfl

/-- How both register moves end: once registers or memory of `s` have been written, I is advanced from its
value in `s` and the instruction completes. -/
theorem advanceIndex_complete_after {u : State} {ps : List Part} (hu : ChangesOnly ps s u)
    (hps : ps ⊆ [.regs, .memory]) (h : s.i.toNat + x.val ≤ 0xFFF) :
    (u.advanceIndex x).complete.i.toNat =
        (if s.cfg.quirks.memoryIncrement then s.i.toNat + x.val + 1 else s.i.toNat) ∧
      MovedBy 2 s (u.advanceIndex x).complete ∧
      ChangesOnly (ps ++ [.index, .pc, .status]) s (u.advanceIndex x).complete := by
  have hi : u.i = s.i := hu .index fun hmem => absurd (hps hmem) (by decide)
  have hpc : u.pc = s.pc := hu .pc fun hmem => absurd (hps hmem) (by decide)
  have hcfg : u.cfg = s.cfg := hu .config fun hmem => absurd (hps hmem) (by decide)
  refine ⟨?index, movedBy_complete_of_pc ((u.advanceIndex_pc x).trans hpc), ?frame⟩
  case index =>
    rw [← hi] at h ⊢
    rw [← hcfg]
    exact State.toNat_advanceIndex_i h
  case frame =>
    exact (hu.mono (List.subset_append_left _ _)).trans
      (changesOnly_advanceIndex_complete.mono (List.subset_append_right _ _))

theorem State.lowNibble_eq_mod (s : State) (x : Reg) : s.lowNibble x = (s.reg x).toNat % 16 :=
  (BitVec.toNat_and _ _).trans (Nat.and_two_pow_sub_one_eq_mod _ 4)

/-- Every glyph lies below 0x200, so its address does not wrap. -/
theorem toNat_glyphAddress (c : Config) {g : Nat} (h : g < 16) :
    (glyphAddress c g).toNat = c.fontBase.val + 5 * g := by
  have := c.fontBase.isLt
  rw [glyphAddress, BitVec.toNat_ofNat]
  omega

/-! ## The register moves, by the last address they reach -/

theorem exec_storeRegs_of_inside (h : s.i.toNat + x.val ≤ 0xFFF) :
    exec (.storeRegs x) s =
      .next ((s.storeBytes s.i.toNat (s.regsUpTo x)).advanceIndex x).complete := by
  show execStoreRegs x s = _
  rw [execStoreRegs, s.memWrite_ok (.inr (by rw [State.regsUpTo_length]; omega)), State.orOutOfBounds_ok]

theorem exec_storeRegs_of_past (h : 0xFFF < s.i.toNat + x.val) :
    exec (.storeRegs x) s = .next (s.raise .memoryOutOfBounds (max s.i.toNat 0x1000)) := by
  show execStoreRegs x s = _
  rw [execStoreRegs, s.memWrite_error (by rw [State.regsUpTo_length]; omega), State.orOutOfBounds_error]

theorem exec_loadRegs_of_inside (h : s.i.toNat + x.val ≤ 0xFFF) :
    exec (.loadRegs x) s =
      .next ((s.setRegs ((List.range (x.val + 1)).map fun k =>
        s.byteAt (s.i.toNat + k))).advanceIndex x).complete := by
  show execLoadRegs x s = _
  rw [execLoadRegs, s.memRead_ok (.inr (by omega)), State.orOutOfBounds_ok]

theorem exec_loadRegs_of_past (h : 0xFFF < s.i.toNat + x.val) :
    exec (.loadRegs x) s = .next (s.raise .memoryOutOfBounds (max s.i.toNat 0x1000)) := by
  show execLoadRegs x s = _
  rw [execLoadRegs, s.memRead_error (by omega), State.orOutOfBounds_error]

/-! ## The bytes moved -/

theorem State.regsUpTo_getElem {k : Reg} (hk : k.val < (s.regsUpTo x).length) :
    (s.regsUpTo x)[k.val] = s.reg k := by
  simp [State.regsUpTo, State.reg]

theorem State.reg_setRegs_map_range {n : Nat} (f : Nat → Byte) {k : Reg} (hk : k.val < n) :
    (s.setRegs ((List.range n).map f)).reg k = f k.val := by
  simp [State.reg_setRegs, hk]

end

/-- Settles O47: the access is inside memory and its bytes are V0 to Vx, or the check raises before any is
stored. -/
theorem registerStoreResult : Obligations.RegisterStoreResult := by
  refine fun x => ⟨decodeWord_encodeWord (.storeRegs x), fun s hm => ⟨fun hin => ?inside, fun hpast => ?past⟩⟩
  case inside =>
    have hexec := exec_storeRegs_of_inside hin
    have hs := exec_storeRegs_storedAtIndex hexec rfl
    refine ⟨_, hexec, fun k hk => ?stored, fun a ha => ?kept,
      advanceIndex_complete_after (changesOnly_storeBytes s _ _) (by simp) hin⟩
    case stored =>
      have hlen : k.val < (s.regsUpTo x).length := by
        rw [State.regsUpTo_length]
        exact Nat.lt_succ_of_le hk
      rw [hs.byteAt_inside hm hlen, State.regsUpTo_getElem]
    case kept => exact hs.byteAt_outside (by rwa [State.regsUpTo_length])
  case past => exact ⟨_, exec_storeRegs_of_past hpast, raised_raise s _ _⟩

/-- Settles O48: the access is inside memory and V0 to Vx take its bytes, or the check raises before any is
loaded. -/
theorem registerLoadResult : Obligations.RegisterLoadResult := by
  refine fun x => ⟨decodeWord_encodeWord (.loadRegs x), fun s => ⟨fun hin => ?inside, fun hpast => ?past⟩⟩
  case inside =>
    have hexec := exec_loadRegs_of_inside hin
    refine ⟨_, hexec, fun k hk => ?loaded, fun k hk => ?kept,
      advanceIndex_complete_after (changesOnly_setV s _) (by simp) hin⟩
    case loaded =>
      exact (State.reg_congr (State.advanceIndex_v _ x) k).trans
        (State.reg_setRegs_map_range _ (Nat.lt_succ_of_le hk))
    case kept => exact exec_keepsRegsBut hexec k (by simpa [Instr.dests] using hk)
  case past => exact ⟨_, exec_loadRegs_of_past hpast, raised_raise s _ _⟩

/-- Settles O43: the instruction is the write of nnn to I, then completion. -/
theorem loadIndexResult : Obligations.LoadIndexResult := fun nnn =>
  ⟨decodeWord_encodeWord (.ldI nnn), fun s => ⟨_, rfl, BitVec.toNat_setWidth_of_le (by decide),
    movedBy_complete (s.setIndex _), changesOnly_setIndex_complete s _⟩⟩

/-- Settles O45: a low nibble is below 16, and the address of its glyph does not wrap. -/
theorem fontAddressResult : Obligations.FontAddressResult := by
  refine fun x => ⟨decodeWord_encodeWord (.ldF x), fun s =>
    ⟨_, rfl, ?glyph, movedBy_complete (s.setIndex _), changesOnly_setIndex_complete s _⟩⟩
  case glyph =>
    have hg : (s.reg x).toNat % 16 < 16 := Nat.mod_lt _ (by decide)
    rw [← toNat_glyphAddress s.cfg hg, ← s.lowNibble_eq_mod x]
    rfl

end Sys2Proof.Machine
end

section
/-! SUPPORT. The key that SKP and SKNP test, and what an instruction that completes has changed
(spec/44_random_timers_keypad.md R221 to R223, R225, R226). -/

namespace Sys2Proof.Machine

theorem State.keyDown_lowNibble (s : State) (x : Reg) :
    s.keyDown (s.lowNibble x) = s.keys.getLsbD ((s.reg x).toNat % 16) :=
  congrArg s.keys.getLsbD (s.lowNibble_eq_mod x)

theorem movedBy_skipIf_not (s : State) (b : Bool) : MovedBy (if b then 2 else 4) s (s.skipIf !b) := by
  cases b
  · exact movedBy_skipIf s true
  · exact movedBy_skipIf s false

/-- Completion adds pc and the status to what has been changed before it. -/
theorem ChangesOnly.complete {ps : List Part} {s u : State} (h : ChangesOnly ps s u) :
    ChangesOnly (ps ++ [.pc, .status]) s u.complete :=
  (h.mono (List.subset_append_left _ _)).trans
    ((changesOnly_finish u _).mono (List.subset_append_right _ _))

/-- Settles O51: SKP skips on the level of the key that the low nibble of Vx names, SKNP on the negation of that
level. -/
theorem skipsOnKey : Obligations.SkipsOnKey := by
  refine fun x => ⟨decodeWord_encodeWord (.skp x), decodeWord_encodeWord (.sknp x), fun s => ?skips⟩
  rw [← s.keyDown_lowNibble x]
  refine ⟨?skp, ?sknp⟩
  case skp => exact ⟨_, rfl, movedBy_skipIf s _, changesOnly_skipIf s _⟩
  case sknp => exact ⟨_, rfl, movedBy_skipIf_not s _, changesOnly_skipIf s _⟩

/-- Settles O52: each instruction is one write, to Vx or to a timer, then completion. -/
theorem timerMoves : Obligations.TimerMoves := by
  refine fun x => ⟨decodeWord_encodeWord (.ldVxDt x), decodeWord_encodeWord (.ldDtVx x),
    decodeWord_encodeWord (.ldStVx x), fun s => ⟨?readDelay, ?writeDelay, ?writeSound⟩⟩
  case readDelay =>
    exact ⟨(s.setReg x s.dt).complete, rfl, s.reg_setReg_same x s.dt, keepsRegsBut_setReg s (by simp) s.dt,
      movedBy_complete (s.setReg x s.dt), changesOnly_setV_complete s _⟩
  case writeDelay =>
    exact ⟨_, rfl, rfl, movedBy_complete { s with dt := s.reg x }, (changesOnly_setDelay s _).complete⟩
  case writeSound =>
    exact ⟨_, rfl, rfl, rfl, movedBy_complete { s with st := s.reg x }, (changesOnly_setSound s _).complete⟩

end Sys2Proof.Machine
end

section
/-! SUPPORT. What an event can do while a display wait lasts (spec/45_display.md R241 to R243). -/

namespace Sys2Proof

theorem decodeGroup8_ne_cls (w : Word) : decodeGroup8 w ≠ .ok .cls := by
  unfold decodeGroup8
  split <;> simp

theorem decodeGroupE_ne_cls (w : Word) : decodeGroupE w ≠ .ok .cls := by
  unfold decodeGroupE
  repeat' split
  all_goals simp

theorem decodeGroupF_ne_cls (w : Word) : decodeGroupF w ≠ .ok .cls := by
  unfold decodeGroupF
  repeat' split
  all_goals simp

/-- No word but 00E0 decodes to CLS (spec/30_encoding.md R94). -/
theorem eq_of_decodeWord_eq_cls {w : Word} (h : decodeWord w = .ok .cls) : w = 0x00E0 := by
  by_contra hw
  unfold decodeWord at h
  split at h
  case h_1 =>
    rw [if_neg hw] at h
    split at h <;> cases h
  case h_9 => exact decodeGroup8_ne_cls w h
  case h_15 => exact decodeGroupE_ne_cls w h
  case h_16 => exact decodeGroupF_ne_cls w h
  case h_6 | h_10 => split at h <;> cases h
  all_goals cases h

end Sys2Proof

namespace Sys2Proof.Machine

/-- Settles O54: the instruction is the clearing of the framebuffer, then completion. -/
theorem clearScreenResult : Obligations.ClearScreenResult :=
  ⟨decodeWord_encodeWord .cls, fun s => ⟨_, rfl, fun x y => pixel_clear (x, y),
    movedBy_complete { s with fb := Vector.replicate 32 0 }, (changesOnly_setScreen s _).complete⟩⟩

section
variable {s t : State}

theorem State.drawMustWait_iff :
    s.drawMustWait = true ↔ s.cfg.quirks.displayWait = true ∧ s.dw = .waitBlank := by
  simp [State.drawMustWait]

/-- The only instruction that writes dw is DRW, and it leaves WAIT_BLANK behind. -/
theorem exec_keeps_waitBlank {i : Instr} (h : exec i s = .next t) (hdw : s.dw = .waitBlank) :
    t.dw = .waitBlank := by
  by_contra hne
  have hchanged : t.dw ≠ s.dw := hdw ▸ hne
  obtain ⟨-, x, y, n, rfl⟩ :=
    draw_mem_effects (mem_effects_of_not_keeps (p := .draw) h hchanged (by decide))
  exact hne (exec_drw_dw h hchanged)

/-- A DRW that must wait raises at its bounds check or holds. -/
theorem exec_drw_keeps_screen {x y : Reg} {n : BitVec 4} (h : exec (.drw x y n) s = .next t)
    (hw : s.drawMustWait = true) : Keeps s t .screen := by
  obtain ⟨-, hr⟩ | ⟨-, ⟨-, hr⟩ | ⟨hgo, -⟩⟩ := execDrw_cases s x y n
  · cases hr.symm.trans h
    exact fun _ _ => rfl
  · cases hr.symm.trans h
    exact fun _ _ => rfl
  · exact absurd hw (by simp [hgo])

theorem exec_cls_clears (h : exec .cls s = .next t) (px : Fin 64) (py : Fin 32) :
    t.pixelAt px py = false := by
  cases h
  exact pixel_clear (px, py)

theorem exec_keeps_screen_or_cls {i : Instr} (h : exec i s = .next t) (hw : s.drawMustWait = true) :
    Keeps s t .screen ∨ i = .cls := by
  by_cases hk : Keeps s t .screen
  · exact .inl hk
  · obtain hcls | ⟨x, y, n, rfl⟩ := screen_mem_effects (mem_effects_of_not_keeps h hk (by decide))
    · exact .inr hcls
    · exact .inl (exec_drw_keeps_screen h hw)

/-- What a Step can do while a display wait lasts: the wait goes on, and only the word 00E0 touches the
screen. -/
theorem stepEvent_of_drawMustWait (h : stepEvent s = .next t) (hw : s.drawMustWait = true) :
    t.dw = .waitBlank ∧
      (Keeps s t .screen ∨ s.fetchWord = .ok 0x00E0 ∧ ∀ px py, t.pixelAt px py = false) := by
  have hdw : s.dw = .waitBlank := (State.drawMustWait_iff.1 hw).2
  obtain ⟨-, hr⟩ | ⟨-, -, hr⟩ | ⟨_, _, -, -, -, hr⟩ | ⟨_, i, -, hfetch, hdec, hr⟩ :=
    stepEvent_cases s <;>
    rw [hr] at h
  case inr.inr.inr =>
    refine ⟨exec_keeps_waitBlank h hdw, (exec_keeps_screen_or_cls h hw).imp_right ?_⟩
    rintro rfl
    exact ⟨eq_of_decodeWord_eq_cls hdec ▸ hfetch, exec_cls_clears h⟩
  all_goals
    cases h
    exact ⟨hdw, .inl fun _ _ => rfl⟩

end

/-- Settles O58: a Step while the wait lasts changes no pixel unless it runs CLS; LoadRom and KeypadWrite touch
neither dw nor the screen. -/
theorem noSecondDrawInTickInterval : Obligations.NoSecondDrawInTickInterval := by
  intro s t hq hdw htick hreset h
  have hw : s.drawMustWait = true := State.drawMustWait_iff.2 ⟨hq, hdw⟩
  cases hin : s.inputs with
  | nil =>
    rw [step_nil s hin] at h
    obtain ⟨hwait, hscreen⟩ := stepEvent_of_drawMustWait h hw
    exact ⟨hwait, hscreen.imp_right fun hcls => ⟨s, .inl ⟨hin, rfl⟩, hcls⟩⟩
  | cons e rest =>
    rw [step_cons s hin] at h
    cases e with
    | step =>
      obtain ⟨hwait, hscreen⟩ := stepEvent_of_drawMustWait h hw
      exact ⟨hwait, hscreen.imp_right fun hcls => ⟨_, .inr ⟨rest, hin, rfl⟩, hcls⟩⟩
    | tick => simp [hin] at htick
    | reset => simp [hin] at hreset
    | loadRom bytes =>
      cases h
      exact ⟨by simpa using hdw, .inl (State.pixelAt_congr (State.loadRom_fb _ bytes))⟩
    | keypadWrite ks =>
      cases h
      exact ⟨hdw, .inl fun _ _ => rfl⟩

end Sys2Proof.Machine
end

section
/-! SUPPORT. The words a Step refuses: a word that decodes is the encoding of what it decodes to, so it matches
that instruction's row of the opcode map (spec/30_encoding.md R92, R94 to R96; spec/60_exceptions.md R261). -/

namespace Sys2Proof

/-! ## A word that decodes is an encoding -/

section
variable {w : Word} {i : Instr} {op n : BitVec 4}

theorem opAddr_of_fieldOp (hop : (fieldOp w).toNat = op.toNat) : opAddr op (fieldNnn w) = w :=
  BitVec.eq_of_toNat_eq hop ▸ opAddr_fields w

theorem opRegByte_of_fieldOp (hop : (fieldOp w).toNat = op.toNat) :
    opRegByte op (fieldX w) (fieldKk w) = w :=
  BitVec.eq_of_toNat_eq hop ▸ opRegByte_fields w

theorem nibbles_of_fieldOp (hop : (fieldOp w).toNat = op.toNat) :
    nibbles op (regField (fieldX w)) (regField (fieldY w)) (fieldN w) = w :=
  BitVec.eq_of_toNat_eq hop ▸ nibbles_fields w

theorem nibbles_of_fieldOp_fieldN (hop : (fieldOp w).toNat = op.toNat) (hn : (fieldN w).toNat = n.toNat) :
    nibbles op (regField (fieldX w)) (regField (fieldY w)) n = w :=
  BitVec.eq_of_toNat_eq hn ▸ nibbles_of_fieldOp hop

theorem encodeWord_of_decodeGroup8 (h : decodeGroup8 w = .ok i) (hop : (fieldOp w).toNat = 0x8) :
    encodeWord i = w := by
  unfold decodeGroup8 at h
  split at h
  case h_10 => cases h
  case h_1 hn | h_2 hn | h_3 hn | h_4 hn | h_5 hn | h_6 hn | h_7 hn | h_8 hn | h_9 hn =>
    cases h
    exact nibbles_of_fieldOp_fieldN hop hn

theorem encodeWord_of_decodeGroupE (h : decodeGroupE w = .ok i) (hop : (fieldOp w).toNat = 0xE) :
    encodeWord i = w := by
  unfold decodeGroupE at h
  rw [← opRegByte_of_fieldOp (op := 0xE) hop]
  split_ifs at h with hkk hkk <;>
    cases h <;> simp only [encodeWord, hkk]

theorem encodeWord_of_decodeGroupF (h : decodeGroupF w = .ok i) (hop : (fieldOp w).toNat = 0xF) :
    encodeWord i = w := by
  unfold decodeGroupF at h
  rw [← opRegByte_of_fieldOp (op := 0xF) hop]
  split_ifs at h with hkk hkk hkk hkk hkk hkk hkk hkk hkk <;>
    cases h <;> simp only [encodeWord, hkk]

/-- Only the encoding of an instruction decodes to it: the decoder reads every bit of the word, as an operand
or as part of the opcode. -/
theorem encodeWord_of_decodeWord (h : decodeWord w = .ok i) : encodeWord i = w := by
  unfold decodeWord at h
  split at h
  case h_1 =>
    split_ifs at h with hcls hret
    · cases h
      exact hcls.symm
    · cases h
      exact hret.symm
  case h_6 hop | h_10 hop =>
    split_ifs at h with hn
    cases h
    exact nibbles_of_fieldOp_fieldN hop (congrArg BitVec.toNat hn)
  case h_9 hop => exact encodeWord_of_decodeGroup8 h hop
  case h_15 hop => exact encodeWord_of_decodeGroupE h hop
  case h_16 hop => exact encodeWord_of_decodeGroupF h hop
  case h_14 hop =>
    cases h
    exact nibbles_of_fieldOp hop
  case h_17 => cases h
  case h_2 hop | h_3 hop | h_11 hop | h_12 hop =>
    cases h
    exact opAddr_of_fieldOp hop
  case h_4 hop | h_5 hop | h_7 hop | h_8 hop | h_13 hop =>
    cases h
    exact opRegByte_of_fieldOp hop

end

/-! ## An encoding matches its row -/

section
open Laws.RowMatch

theorem encodeWord_and_mask (i : Instr) : encodeWord i &&& i.opRow.mask = i.opRow.pattern :=
  match i with
  | .cls => cls
  | .ret => ret
  | .jp nnn => jp nnn
  | .call nnn => call nnn
  | .seImm x kk => seImm x kk
  | .sneImm x kk => sneImm x kk
  | .seReg x y => seReg x y
  | .ldImm x kk => ldImm x kk
  | .addImm x kk => addImm x kk
  | .ldReg x y => ldReg x y
  | .orReg x y => orReg x y
  | .andReg x y => andReg x y
  | .xorReg x y => xorReg x y
  | .addReg x y => addReg x y
  | .subReg x y => subReg x y
  | .shr x y => shr x y
  | .subnReg x y => subnReg x y
  | .shl x y => shl x y
  | .sneReg x y => sneReg x y
  | .ldI nnn => ldI nnn
  | .jpV0 nnn => jpV0 nnn
  | .rnd x kk => rnd x kk
  | .drw x y n => drw x y n
  | .skp x => skp x
  | .sknp x => sknp x
  | .ldVxDt x => ldVxDt x
  | .ldVxK x => ldVxK x
  | .ldDtVx x => ldDtVx x
  | .ldStVx x => ldStVx x
  | .addI x => addI x
  | .ldF x => ldF x
  | .ldB x => ldB x
  | .storeRegs x => storeRegs x
  | .loadRegs x => loadRegs x

end

theorem wordWellFormed_encodeWord (i : Instr) : wordWellFormed (encodeWord i) = true :=
  List.any_eq_true.2 ⟨i.opRow, opRow_mem_opTable i, beq_iff_eq.2 (encodeWord_and_mask i)⟩

theorem wordWellFormed_of_decodeWord {w : Word} {i : Instr} (h : decodeWord w = .ok i) :
    wordWellFormed w = true :=
  encodeWord_of_decodeWord h ▸ wordWellFormed_encodeWord i

/-- The byte at the lower address is the high byte (spec/20_memory.md R62). -/
theorem toNat_wordOfBytes (b0 b1 : Byte) : (wordOfBytes b0 b1).toNat = 256 * b0.toNat + b1.toNat :=
  calc (wordOfBytes b0 b1).toNat
    _ = b0.toNat <<< 8 ||| b1.toNat := BitVec.toNat_append b0 b1
    _ = b0.toNat <<< 8 + b1.toNat := (Nat.shiftLeft_add_eq_or_of_lt b1.isLt _).symm
    _ = 256 * b0.toNat + b1.toNat := by rw [Nat.shiftLeft_eq, Nat.mul_comm]

end Sys2Proof

namespace Sys2Proof.Machine

theorem NextIsStep.step_eq {s u : State} (h : NextIsStep s u) : step s = stepEvent u := by
  obtain ⟨hnone, rfl⟩ | ⟨rest, htaken, rfl⟩ := h
  · exact step_nil u hnone
  · exact step_cons s htaken

/-- A Step that fetches a word outside the opcode map raises InvalidOpcode with that word (R261). -/
theorem stepEvent_of_invalid_word {s : State} {w : Word} (herr : s.err = none) (hfetch : s.fetchWord = .ok w)
    (hw : wordWellFormed w = false) : stepEvent s = .next (s.raise .invalidOpcode w.toNat) := by
  obtain ⟨⟨k, hk⟩, -⟩ | ⟨-, htop, -⟩ | ⟨w', _, -, hfetch', -, hr⟩ | ⟨w', i, -, hfetch', hdec, -⟩ :=
    stepEvent_cases s
  · cases herr.symm.trans hk
  · cases (s.fetchWord_top htop).symm.trans hfetch
  · cases hfetch'.symm.trans hfetch
    exact hr
  · cases hfetch'.symm.trans hfetch
    exact absurd (wordWellFormed_of_decodeWord hdec) (by simp [hw])

/-- Settles O11: the fetch answers the two bytes at pc, no row of the opcode map matches them, and the decode
error enters the latch. -/
theorem invalidWordRaisesInvalidOpcode : Obligations.InvalidWordRaisesInvalidOpcode := by
  intro s u hstep herr hpc hw
  refine ⟨_, hstep.step_eq.trans (stepEvent_of_invalid_word herr (u.fetchWord_ok hpc) hw), rfl, ?_⟩
  rw [toNat_wordOfBytes]
  exact raised_raise u .invalidOpcode _

end Sys2Proof.Machine
end

section
/-! SUPPORT. The words the decoder accepts and rejects: one that matches a row of the opcode map decodes, and the
rejected ones fall into the six groups of the table of invalid words (spec/30_encoding.md R92, R94 to R96). -/

namespace Sys2Proof

/-! ## Words that a mask does not tell apart -/

section
variable {w v m : Word}

theorem fieldOp_eq_of_and_mask (h : w &&& m = v &&& m) (hm : fieldOp m = BitVec.allOnes 4) :
    fieldOp w = fieldOp v := by
  have hf := congrArg fieldOp h
  simpa only [fieldOp, BitVec.extractLsb'_and, show m.extractLsb' 12 4 = _ from hm, BitVec.and_allOnes]
    using hf

theorem fieldN_eq_of_and_mask (h : w &&& m = v &&& m) (hm : fieldN m = BitVec.allOnes 4) :
    fieldN w = fieldN v := by
  have hf := congrArg fieldN h
  simpa only [fieldN, BitVec.extractLsb'_and, show m.extractLsb' 0 4 = _ from hm, BitVec.and_allOnes]
    using hf

theorem fieldKk_eq_of_and_mask (h : w &&& m = v &&& m) (hm : fieldKk m = BitVec.allOnes 8) :
    fieldKk w = fieldKk v := by
  have hf := congrArg fieldKk h
  simpa only [fieldKk, BitVec.extractLsb'_and, show m.extractLsb' 0 8 = _ from hm, BitVec.and_allOnes]
    using hf

end

/-- A word that matches the row of an instruction decodes: it has the opcode bits of that instruction's word,
and the decoder tells instructions by no others (R94). -/
theorem decodeWord_of_matches {w : Word} {i : Instr} (hw : w &&& i.opRow.mask = i.opRow.pattern) :
    ∃ j, decodeWord w = .ok j := by
  have h : w &&& i.opRow.mask = encodeWord i &&& i.opRow.mask := hw.trans (encodeWord_and_mask i).symm
  cases i with
  | cls | ret =>
    obtain rfl := (BitVec.and_allOnes (x := w)).symm.trans hw
    exact ⟨_, rfl⟩
  | jp | call | seImm | sneImm | ldImm | addImm | ldI | jpV0 | rnd | drw =>
    have hop := fieldOp_eq_of_and_mask (m := 0xF000) h (by decide)
    simp [decodeWord, hop, encodeWord]
  | seReg | sneReg =>
    have hop := fieldOp_eq_of_and_mask (m := 0xF00F) h (by decide)
    have hn := fieldN_eq_of_and_mask (m := 0xF00F) h (by decide)
    simp [decodeWord, hop, hn, encodeWord]
  | ldReg | orReg | andReg | xorReg | addReg | subReg | shr | subnReg | shl =>
    have hop := fieldOp_eq_of_and_mask (m := 0xF00F) h (by decide)
    have hn := fieldN_eq_of_and_mask (m := 0xF00F) h (by decide)
    simp [decodeWord, decodeGroup8, hop, hn, encodeWord]
  | skp | sknp =>
    have hop := fieldOp_eq_of_and_mask (m := 0xF0FF) h (by decide)
    have hkk := fieldKk_eq_of_and_mask (m := 0xF0FF) h (by decide)
    simp [decodeWord, decodeGroupE, hop, hkk, encodeWord]
  | ldVxDt | ldVxK | ldDtVx | ldStVx | addI | ldF | ldB | storeRegs | loadRegs =>
    have hop := fieldOp_eq_of_and_mask (m := 0xF0FF) h (by decide)
    have hkk := fieldKk_eq_of_and_mask (m := 0xF0FF) h (by decide)
    simp [decodeWord, decodeGroupF, hop, hkk, encodeWord]

theorem decodeWord_of_wordWellFormed {w : Word} (h : wordWellFormed w = true) :
    ∃ i, decodeWord w = .ok i := by
  obtain ⟨r, hr, hmatch⟩ := List.any_eq_true.1 h
  obtain ⟨i, -, rfl⟩ := List.mem_map.1 hr
  exact decodeWord_of_matches (beq_iff_eq.1 hmatch)

/-! ## The words rejected -/

section
variable (w : Word)

theorem toNat_fieldOp : (fieldOp w).toNat = w.toNat / 4096 := by
  have := w.isLt
  rw [fieldOp, BitVec.extractLsb'_toNat, Nat.shiftRight_eq_div_pow]
  omega

theorem toNat_fieldN : (fieldN w).toNat = w.toNat % 16 := by simp [fieldN]

theorem toNat_fieldKk : (fieldKk w).toNat = w.toNat % 256 := by simp [fieldKk]

theorem decodeGroup8_eq_error : decodeGroup8 w = .error (.invalidOpcode w) ↔
    w.toNat % 16 ∈ [0x8, 0x9, 0xA, 0xB, 0xC, 0xD, 0xF] := by
  unfold decodeGroup8
  rw [← toNat_fieldN]
  split
  case h_10 =>
    have hlt := (fieldN w).isLt
    interval_cases (fieldN w).toNat <;> simp_all
  case h_1 h | h_2 h | h_3 h | h_4 h | h_5 h | h_6 h | h_7 h | h_8 h | h_9 h => simp [h]

theorem decodeGroupE_eq_error : decodeGroupE w = .error (.invalidOpcode w) ↔
    w.toNat % 256 ∉ [0x9E, 0xA1] := by
  unfold decodeGroupE
  rw [← toNat_fieldKk]
  simp only [BitVec.toNat_eq]
  split_ifs <;> simp_all

theorem decodeGroupF_eq_error : decodeGroupF w = .error (.invalidOpcode w) ↔
    w.toNat % 256 ∉ [0x07, 0x0A, 0x15, 0x18, 0x1E, 0x29, 0x33, 0x55, 0x65] := by
  unfold decodeGroupF
  rw [← toNat_fieldKk]
  simp only [BitVec.toNat_eq]
  split_ifs <;> simp_all

theorem decodeGroup8_cases : (∃ i, decodeGroup8 w = .ok i) ∨ decodeGroup8 w = .error (.invalidOpcode w) := by
  unfold decodeGroup8
  split <;> simp

theorem decodeGroupE_cases : (∃ i, decodeGroupE w = .ok i) ∨ decodeGroupE w = .error (.invalidOpcode w) := by
  unfold decodeGroupE
  split_ifs <;> simp

theorem decodeGroupF_cases : (∃ i, decodeGroupF w = .ok i) ∨ decodeGroupF w = .error (.invalidOpcode w) := by
  unfold decodeGroupF
  split_ifs <;> simp

/-- The decoder accepts a word or rejects it by name (R96). -/
theorem decodeWord_cases : (∃ i, decodeWord w = .ok i) ∨ decodeWord w = .error (.invalidOpcode w) := by
  unfold decodeWord
  split
  case h_1 | h_6 | h_10 => split_ifs <;> simp
  case h_9 => exact decodeGroup8_cases w
  case h_15 => exact decodeGroupE_cases w
  case h_16 => exact decodeGroupF_cases w
  case h_17 => exact .inr rfl
  all_goals exact .inl ⟨_, rfl⟩

end

/-- Settles O1: the word decodes to its instruction, and the bytes of a word decode as the word does. -/
theorem decodeOfEncodeIsIdentity : Obligations.DecodeOfEncodeIsIdentity := fun i rest =>
  ⟨decodeWord_encodeWord i, by rw [encode, decode_bytesOfWord, decodeWord_encodeWord]⟩

/-- Settles O2: the decoder reads every bit of the word. -/
theorem decodedWordReencodesToItself : Obligations.DecodedWordReencodesToItself :=
  fun _ _ => encodeWord_of_decodeWord

/-- Settles O3: a matching word decodes and is the encoding of what it decodes to, which matches its row; a word
that decodes matches a row, so every other word is rejected. -/
theorem decoderAgreesWithOpcodeMap : Obligations.DecoderAgreesWithOpcodeMap := by
  refine fun w => ⟨fun hwf => ?accepted, fun hwf => ?rejected⟩
  case accepted =>
    obtain ⟨i, hi⟩ := decodeWord_of_wordWellFormed hwf
    have hmatch := encodeWord_and_mask i
    rw [encodeWord_of_decodeWord hi] at hmatch
    exact ⟨i, hi, beq_iff_eq.2 hmatch⟩
  case rejected =>
    obtain ⟨i, hi⟩ | herr := decodeWord_cases w
    · exact absurd (wordWellFormed_of_decodeWord hi) (by simp [hwf])
    · exact herr

/-- Settles O4: the high nibble selects one of the groups, and each group has its own test. -/
theorem invalidWordsByGroup : Obligations.InvalidWordsByGroup := by
  intro w
  have hlt := w.isLt
  unfold decodeWord
  rw [toNat_fieldOp]
  split
  case h_1 hop =>
    simp only [hop, BitVec.toNat_eq]
    split_ifs <;> simp_all
  case h_6 hop | h_10 hop =>
    simp only [hop, ← toNat_fieldN, BitVec.toNat_eq]
    split_ifs <;> simp_all
  case h_9 hop => simpa [hop] using decodeGroup8_eq_error w
  case h_15 hop => simpa [hop] using decodeGroupE_eq_error w
  case h_16 hop => simpa [hop] using decodeGroupF_eq_error w
  case h_17 =>
    have hop : w.toNat / 4096 < 16 := by omega
    interval_cases w.toNat / 4096 <;> contradiction
  case h_2 hop | h_3 hop | h_4 hop | h_5 hop | h_7 hop | h_8 hop | h_11 hop | h_12 hop | h_13 hop | h_14 hop =>
    simp [hop]

/-- Settles O5: each word is written out, and the decoder runs on it. -/
theorem sampleWordsDecode : Obligations.SampleWordsDecode := by
  unfold Obligations.SampleWordsDecode
  decide

end Sys2Proof
end

section
/-! SUPPORT. How the control flow instructions end: skips on an immediate, the jump with offset, and a return
right after a call (spec/41_control_flow.md R150 to R158). -/

namespace Sys2Proof.Machine

section
variable {s : State} {nnn : Addr}

/-- Everything RET can do. -/
theorem exec_ret_cases (s : State) :
    (s.sp.val = 0 ∧ exec .ret s = .next (s.raise .stackUnderflow 0)) ∨
      ∃ k : Fin 16, s.sp.val = k.val + 1 ∧
        exec .ret s = .next ({ s with sp := k.castSucc }.finish ((s.stack[k]).extractLsb' 0 12)) := by
  obtain hempty | hsome := Nat.eq_zero_or_pos s.sp.val
  · exact .inl ⟨hempty, exec_ret_of_empty hempty⟩
  · have hk : s.sp.val = (⟨s.sp.val - 1, by omega⟩ : Fin 16).val + 1 := (Nat.sub_add_cancel hsome).symm
    exact .inr ⟨_, hk, exec_ret_of_sp_eq hk⟩

/-- Everything CALL can do. -/
theorem exec_call_cases (s : State) (nnn : Addr) :
    (s.sp.val = 16 ∧ exec (.call nnn) s = .next (s.raise .stackOverflow 0)) ∨
      ∃ k : Fin 16, s.sp.val = k.val ∧ exec (.call nnn) s =
        .next ({ s with stack := s.stack.set k (s.npc.setWidth 16), sp := k.succ }.finish nnn) := by
  obtain hroom | hfull := Nat.lt_or_ge s.sp.val 16
  · exact .inr ⟨⟨s.sp.val, hroom⟩, rfl, exec_call_of_sp_eq rfl nnn⟩
  · have hfull : s.sp.val = 16 := by omega
    exact .inl ⟨hfull, exec_call_of_full hfull nnn⟩

/-- Everything JP V0,nnn can do (decision D3). -/
theorem exec_jpV0_cases (s : State) (nnn : Addr) :
    (s.jumpTarget nnn ≤ 0xFFF ∧
        exec (.jpV0 nnn) s = .next (s.finish (BitVec.ofNat 12 (s.jumpTarget nnn)))) ∨
      (0xFFF < s.jumpTarget nnn ∧
        exec (.jpV0 nnn) s = .next (s.raise .memoryOutOfBounds (s.jumpTarget nnn))) := by
  obtain hlt | hle := Nat.lt_or_ge 0xFFF (s.jumpTarget nnn)
  · exact .inr ⟨hlt, if_pos hlt⟩
  · exact .inl ⟨hle, if_neg (Nat.not_lt.2 hle)⟩

/-- The register the jump adds: V0, or under Q.jumping the one named by the top nibble of nnn. -/
theorem jumpTarget_eq {r : Reg}
    (hr : r.val = if s.cfg.quirks.jumping then nnn.toNat / 256 else 0) :
    s.jumpTarget nnn = nnn.toNat + (s.reg r).toNat := by
  unfold State.jumpTarget State.jumpOffset
  split at hr
  case isTrue hq =>
    have hx : (nnn.extractLsb' 8 4).toFin = r := by
      apply Fin.ext
      have := nnn.isLt
      rw [hr, BitVec.val_toFin, BitVec.extractLsb'_toNat, Nat.shiftRight_eq_div_pow]
      omega
    rw [if_pos hq, hx]
  case isFalse hq =>
    rw [if_neg hq, show r = 0 from Fin.ext hr]

/-- A return address is a program counter in 16 bits, and comes back unchanged. -/
theorem extractLsb'_setWidth_addr (a : Addr) : (a.setWidth 16).extractLsb' 0 12 = a := by
  apply BitVec.eq_of_toNat_eq
  simpa using a.isLt

end

/-- Settles O33: the entry CALL pushes is the one RET pops. -/
theorem returnComesBackBehindCall : Obligations.ReturnComesBackBehindCall := by
  intro s t nnn hroom h
  obtain ⟨hfull, -⟩ | ⟨k, hk, hcall⟩ := exec_call_cases s nnn
  · omega
  cases hcall.symm.trans h
  refine ⟨_, exec_ret_of_sp_eq (k := k) rfl, ⟨?pc, rfl⟩, Fin.ext hk.symm⟩
  case pc => simp [extractLsb'_setWidth_addr, State.toNat_npc]

/-- Settles O34: SE skips on the comparison with the immediate, SNE on its negation. -/
theorem skipsOnImmediate : Obligations.SkipsOnImmediate := by
  refine fun x kk => ⟨decodeWord_encodeWord (.seImm x kk), decodeWord_encodeWord (.sneImm x kk),
    fun s => ⟨?se, ?sne⟩⟩
  case se => exact ⟨_, rfl, by simpa using movedBy_skipIf s (s.reg x == kk), changesOnly_skipIf s _⟩
  case sne => exact ⟨_, rfl, by simpa using movedBy_skipIf s (s.reg x != kk), changesOnly_skipIf s _⟩

/-- Settles O36: a sum up to 0xFFF is an address and becomes pc, a larger one is recorded. -/
theorem jumpWithOffset : Obligations.JumpWithOffset := by
  refine fun nnn => ⟨decodeWord_encodeWord (.jpV0 nnn), fun s r target hr htarget => ?_⟩
  obtain rfl : s.jumpTarget nnn = target := (jumpTarget_eq hr).trans htarget.symm
  obtain ⟨hle, hr⟩ | ⟨hlt, hr⟩ := exec_jpV0_cases s nnn
  · refine ⟨fun _ => ⟨_, hr, ?_, rfl, changesOnly_finish s _⟩, fun hlt => absurd hle (Nat.not_le.2 hlt)⟩
    exact (BitVec.toNat_ofNat _ _).trans (Nat.mod_eq_of_lt (Nat.lt_succ_of_le hle))
  · exact ⟨fun hle => absurd hle (Nat.not_le.2 hlt), fun _ => ⟨_, hr, raised_raise s _ _⟩⟩

end Sys2Proof.Machine
end

section
/-! SUPPORT. The results of the register and arithmetic-logic instructions, by the three ways they write their
registers: one register, a result with its flag, a bitwise result (spec/42_register_alu.md R171 to R181). -/

namespace Sys2Proof.Machine

section
variable (s : State) (x : Reg)

/-- What an instruction that writes one register leaves behind. -/
theorem setReg_complete (b : Byte) :
    (s.setReg x b).complete.reg x = b ∧ KeepsRegsBut [x] s (s.setReg x b).complete ∧
      MovedBy 2 s (s.setReg x b).complete ∧
      ChangesOnly [.regs, .pc, .status] s (s.setReg x b).complete :=
  ⟨s.reg_setReg_same x b, keepsRegsBut_setReg s (by simp) b, movedBy_complete (s.setReg x b),
    changesOnly_setV_complete s _⟩

/-- What an instruction that writes a result and then its flag leaves behind: the flag wins when x = 15. -/
theorem setResult_complete (r f : Byte) :
    (s.setResult x r f).complete.reg vf = f ∧ (x ≠ vf → (s.setResult x r f).complete.reg x = r) ∧
      KeepsRegsBut [x, vf] s (s.setResult x r f).complete ∧
      MovedBy 2 s (s.setResult x r f).complete ∧
      ChangesOnly [.regs, .pc, .status] s (s.setResult x r f).complete := by
  refine ⟨?flag, fun hx => ?result, keepsRegsBut_setResult s (by simp) (by simp) r f,
    movedBy_complete (s.setResult x r f), changesOnly_setV_complete s _⟩
  case flag => exact (s.reg_setResult x vf r f).trans (if_pos rfl)
  case result => exact (s.reg_setResult x x r f).trans ((if_neg hx).trans (if_pos rfl))

/-- What OR, AND and XOR leave behind: VF is 0 under Q.vf_reset, and otherwise only Vx is written. -/
theorem setBitwise_complete (r : Byte) :
    (s.cfg.quirks.vfReset = true →
        (s.setBitwise x r).complete.reg vf = 0 ∧ KeepsRegsBut [x, vf] s (s.setBitwise x r).complete) ∧
      (s.cfg.quirks.vfReset = false → KeepsRegsBut [x] s (s.setBitwise x r).complete) ∧
      (x ≠ vf ∨ s.cfg.quirks.vfReset = false → (s.setBitwise x r).complete.reg x = r) ∧
      MovedBy 2 s (s.setBitwise x r).complete ∧
      ChangesOnly [.regs, .pc, .status] s (s.setBitwise x r).complete := by
  unfold State.setBitwise
  cases hq : s.cfg.quirks.vfReset with
  | true =>
    obtain ⟨hflag, hresult, hkept, hrest⟩ := setResult_complete s x r 0
    exact ⟨fun _ => ⟨hflag, hkept⟩, nofun, fun hx => hresult (hx.resolve_right nofun), hrest⟩
  | false =>
    obtain ⟨hresult, hkept, hrest⟩ := setReg_complete s x r
    exact ⟨nofun, fun _ => hkept, fun _ => hresult, hrest⟩

end

theorem toNat_flagByte (b : Bool) : (flagByte b).toNat = b.toNat := by cases b <;> rfl

theorem toNat_sub_byte (a b : Byte) : (a - b).toNat = (256 + a.toNat - b.toNat) % 256 := by
  have := b.isLt
  rw [BitVec.toNat_sub]
  omega

theorem toNat_shiftRightFlag (a : Byte) : (shiftRightFlag a).toNat = a.toNat % 2 := by
  rw [shiftRightFlag, toNat_flagByte, BitVec.getLsbD, Nat.toNat_testBit, Nat.pow_zero, Nat.div_one]

theorem toNat_shiftLeftFlag (a : Byte) : (shiftLeftFlag a).toNat = a.toNat / 128 := by
  have := a.isLt
  rw [shiftLeftFlag, toNat_flagByte, BitVec.getLsbD, Nat.toNat_testBit]
  omega

theorem State.toNat_shiftSource (s : State) (x y : Reg) : (s.shiftSource x y).toNat =
    if s.cfg.quirks.shifting then (s.reg x).toNat else (s.reg y).toNat := apply_ite BitVec.toNat _ _ _

/-- Settles O38: the instruction is the write of the sum to Vx, then completion. -/
theorem addImmediateResult : Obligations.AddImmediateResult := by
  refine fun x kk => ⟨decodeWord_encodeWord (.addImm x kk), fun s => ?_⟩
  obtain ⟨hsum, hrest⟩ := setReg_complete s x (s.reg x + kk)
  exact ⟨_, rfl, (congrArg BitVec.toNat hsum).trans (BitVec.toNat_add _ _), hrest⟩

/-- Settles O39: the instruction is the write of Vy to Vx, then completion. -/
theorem copyRegisterResult : Obligations.CopyRegisterResult := fun x y =>
  ⟨decodeWord_encodeWord (.ldReg x y), fun s => ⟨_, rfl, setReg_complete s x (s.reg y)⟩⟩

/-- Settles O40: each bit of the result is the operation on the two old bits. -/
theorem bitwiseResults : Obligations.BitwiseResults := by
  intro x y s i f hif
  have hbits : ∃ r, exec i s = .next (s.setBitwise x r).complete ∧
      ∀ k, r.getLsbD k = f ((s.reg x).getLsbD k) ((s.reg y).getLsbD k) := by
    simp only [List.mem_cons, List.not_mem_nil, or_false, Prod.mk.injEq] at hif
    obtain ⟨rfl, rfl⟩ | ⟨rfl, rfl⟩ | ⟨rfl, rfl⟩ := hif
    · exact ⟨_, rfl, fun k => BitVec.getLsbD_or⟩
    · exact ⟨_, rfl, fun k => BitVec.getLsbD_and⟩
    · exact ⟨_, rfl, fun k => BitVec.getLsbD_xor⟩
  obtain ⟨r, hexec, hbit⟩ := hbits
  obtain ⟨hreset, hkept, hresult, hrest⟩ := setBitwise_complete s x r
  exact ⟨_, hexec, hreset, hkept, fun hx k _ => by rw [hresult hx, hbit], hrest⟩

/-- Settles O41: each instruction writes its result and then its flag, both from the old values. -/
theorem addSubtractResults : Obligations.AddSubtractResults := by
  rintro x y s a b rfl rfl i r flag hmem
  have hexec : ∃ result, exec i s = .next (s.setResult x result (flagByte flag)).complete ∧
      result.toNat = r := by
    simp only [List.mem_cons, List.not_mem_nil, or_false, Prod.mk.injEq] at hmem
    obtain ⟨rfl, rfl, rfl⟩ | ⟨rfl, rfl, rfl⟩ | ⟨rfl, rfl, rfl⟩ := hmem
    · exact ⟨_, rfl, BitVec.toNat_add _ _⟩
    · exact ⟨_, rfl, toNat_sub_byte _ _⟩
    · exact ⟨_, rfl, toNat_sub_byte _ _⟩
  obtain ⟨result, hexec, rfl⟩ := hexec
  obtain ⟨hflag, hresult, hrest⟩ := setResult_complete s x result (flagByte flag)
  exact ⟨_, hexec, hflag, fun hx => congrArg BitVec.toNat (hresult hx), hrest⟩

/-- Settles O42: each shift writes its result and then the bit shifted out, both from the source the quirk
selects. -/
theorem shiftResults : Obligations.ShiftResults := by
  intro x y s v hv i r out hmem
  rw [← State.toNat_shiftSource] at hv
  subst hv
  have hexec : ∃ result flag, exec i s = .next (s.setResult x result flag).complete ∧
      result.toNat = r ∧ flag.toNat = out := by
    simp only [List.mem_cons, List.not_mem_nil, or_false, Prod.mk.injEq] at hmem
    obtain ⟨rfl, rfl, rfl⟩ | ⟨rfl, rfl, rfl⟩ := hmem
    · exact ⟨_, _, rfl, BitVec.toNat_ushiftRight _ _, toNat_shiftRightFlag _⟩
    · exact ⟨_, _, rfl, by simp [Nat.shiftLeft_eq, Nat.mul_comm], toNat_shiftLeftFlag _⟩
  obtain ⟨result, flag, hexec, rfl, rfl⟩ := hexec
  obtain ⟨hflag, hresult, hrest⟩ := setResult_complete s x result flag
  exact ⟨_, hexec, congrArg BitVec.toNat hflag, fun hx => congrArg BitVec.toNat (hresult hx), hrest⟩

end Sys2Proof.Machine
end

section
/-! SUPPORT. The memory primitives, the decimal store, and the raise of every access through an I above 0xFFF
(spec/20_memory.md R66; spec/43_index_and_memory.md R201 to R206). -/

namespace Sys2Proof.Machine

section
variable {s : State} {x : Reg}

theorem exec_ldB_of_inside (h : s.i.toNat + 2 ≤ 0xFFF) :
    exec (.ldB x) s = .next (s.storeBytes s.i.toNat (bcdDigits (s.reg x))).complete := by
  show execLdB x s = _
  rw [execLdB, s.memWrite_ok (.inr (Nat.succ_le_succ h)), State.orOutOfBounds_ok]

theorem exec_ldB_of_past (h : 0xFFF < s.i.toNat + 2) :
    exec (.ldB x) s = .next (s.raise .memoryOutOfBounds (max s.i.toNat 0x1000)) := by
  show execLdB x s = _
  rw [execLdB, s.memWrite_error (bs := bcdDigits (s.reg x)) ⟨Nat.succ_pos 2, h⟩, State.orOutOfBounds_error]

/-- Everything LD B,Vx can do. -/
theorem exec_ldB_cases (s : State) (x : Reg) :
    (0xFFF < s.i.toNat + 2 ∧ exec (.ldB x) s = .next (s.raise .memoryOutOfBounds (max s.i.toNat 0x1000))) ∨
      (s.i.toNat + 2 ≤ 0xFFF ∧
        exec (.ldB x) s = .next (s.storeBytes s.i.toNat (bcdDigits (s.reg x))).complete) :=
  (Nat.lt_or_ge 0xFFF (s.i.toNat + 2)).imp (fun h => ⟨h, exec_ldB_of_past h⟩)
    fun h => ⟨h, exec_ldB_of_inside h⟩

/-- Everything LD [I],Vx can do. -/
theorem exec_storeRegs_cases (s : State) (x : Reg) :
    (0xFFF < s.i.toNat + x.val ∧
        exec (.storeRegs x) s = .next (s.raise .memoryOutOfBounds (max s.i.toNat 0x1000))) ∨
      (s.i.toNat + x.val ≤ 0xFFF ∧ exec (.storeRegs x) s =
        .next ((s.storeBytes s.i.toNat (s.regsUpTo x)).advanceIndex x).complete) :=
  (Nat.lt_or_ge 0xFFF (s.i.toNat + x.val)).imp (fun h => ⟨h, exec_storeRegs_of_past h⟩)
    fun h => ⟨h, exec_storeRegs_of_inside h⟩

/-- Everything LD Vx,[I] can do. -/
theorem exec_loadRegs_cases (s : State) (x : Reg) :
    (0xFFF < s.i.toNat + x.val ∧
        exec (.loadRegs x) s = .next (s.raise .memoryOutOfBounds (max s.i.toNat 0x1000))) ∨
      (s.i.toNat + x.val ≤ 0xFFF ∧ exec (.loadRegs x) s =
        .next ((s.setRegs ((List.range (x.val + 1)).map fun k =>
          s.byteAt (s.i.toNat + k))).advanceIndex x).complete) :=
  (Nat.lt_or_ge 0xFFF (s.i.toNat + x.val)).imp (fun h => ⟨h, exec_loadRegs_of_past h⟩)
    fun h => ⟨h, exec_loadRegs_of_inside h⟩

/-- The bytes LD B,Vx stores are the three digits. -/
theorem toNat_getElem_bcdDigits (b : Byte) {k : Nat} (hk : k < (bcdDigits b).length) :
    ((bcdDigits b)[k]).toNat = [b.toNat / 100, b.toNat / 10 % 10, b.toNat % 10][k] := by
  simp only [← map_toNat_bcdDigits, List.getElem_map]

theorem exec_drw_of_past {y : Reg} {n : BitVec 4} (hn : n ≠ 0) (h : 0x1000 < s.i.toNat + n.toNat) :
    exec (.drw x y n) s = .next (s.raise .memoryOutOfBounds (max s.i.toNat 0x1000)) := by
  have hpos : n.toNat ≠ 0 := fun e => hn (BitVec.eq_of_toNat_eq e)
  obtain ⟨-, hr⟩ | ⟨hin, -⟩ := execDrw_cases s x y n
  · exact hr
  · omega

end

/-- Settles O28: each primitive checks first, and in range reads or stores exactly the bytes of the access. -/
theorem checkedMemoryAccess : Obligations.CheckedMemoryAccess := by
  refine fun s addr hm => ⟨fun n => ?read, fun bytes => ?write⟩
  case read =>
    split
    case isTrue hout => exact s.memRead_error hout
    case isFalse hin => exact ⟨_, s.memRead_ok (by omega), by simp, by simp⟩
  case write =>
    split
    case isTrue hout => exact s.memWrite_error hout
    case isFalse hin =>
      exact ⟨_, s.memWrite_ok (by omega), fun k hk => s.byteAt_storeBytes_inside hm (by omega) hk,
        fun b hb => s.byteAt_storeBytes_outside hb, changesOnly_storeBytes s addr bytes⟩

/-- Settles O46: the access is inside memory and its bytes are the digits, or the check raises before any is
stored. -/
theorem decimalStoreResult : Obligations.DecimalStoreResult := by
  refine fun x => ⟨decodeWord_encodeWord (.ldB x), fun s hm => ⟨fun hin => ?inside, fun hpast => ?past⟩⟩
  case inside =>
    have hexec := exec_ldB_of_inside (x := x) hin
    have hs := exec_ldB_storedAtIndex hexec rfl
    have hdigit {k : Nat} (hk : k < 3) :=
      (congrArg BitVec.toNat (hs.byteAt_inside hm hk)).trans (toNat_getElem_bcdDigits (s.reg x) hk)
    exact ⟨_, hexec, hdigit (k := 0) (by decide), hdigit (k := 1) (by decide), hdigit (k := 2) (by decide),
      fun a ha => hs.byteAt_outside ha, movedBy_complete (s.storeBytes _ _),
      (changesOnly_storeBytes s _ _).complete⟩
  case past => exact ⟨_, exec_ldB_of_past hpast, raised_raise s _ _⟩

/-- Settles O49: each of the four accesses begins past 0xFFF, so its own check raises, and records I. -/
theorem indexPastTopAlwaysRaises : Obligations.IndexPastTopAlwaysRaises := by
  intro s x y n i hi hn hmem
  have hexec : exec i s = .next (s.raise .memoryOutOfBounds s.i.toNat) := by
    rw [← Nat.max_eq_left (Nat.succ_le_of_lt hi)]
    simp only [List.mem_cons, List.not_mem_nil, or_false] at hmem
    obtain rfl | rfl | rfl | rfl := hmem
    · exact exec_ldB_of_past (by omega)
    · exact exec_storeRegs_of_past (by omega)
    · exact exec_loadRegs_of_past (by omega)
    · have hpos : n.toNat ≠ 0 := fun e => hn (BitVec.eq_of_toNat_eq e)
      exact exec_drw_of_past hn (by omega)
  refine ⟨_, hexec, rfl, ?info, raised_raise s _ _⟩
  case info =>
    have := s.i.isLt
    rw [State.raise_errInfo, BitVec.toNat_ofNat]
    omega

end Sys2Proof.Machine
end

section
/-! SUPPORT. ADD I,Vx, the random draw and the key wait (spec/43_index_and_memory.md R201;
spec/44_random_timers_keypad.md R220, R224). -/

namespace Sys2Proof.Machine

/-- Settles O44: the instruction is the write of the sum to I, then completion. -/
theorem addToIndexResult : Obligations.AddToIndexResult := by
  refine fun x => ⟨decodeWord_encodeWord (.addI x), fun s =>
    ⟨_, rfl, ?sum, movedBy_complete (s.setIndex _), changesOnly_setIndex_complete s _⟩⟩
  case sum =>
    calc (s.i + (s.reg x).setWidth 16).toNat
      _ = (s.i.toNat + ((s.reg x).setWidth 16).toNat) % 65536 := BitVec.toNat_add _ _
      _ = (s.i.toNat + (s.reg x).toNat) % 65536 := by rw [BitVec.toNat_setWidth_of_le (by decide)]

/-- Settles O50: one draw, then the write of the byte drawn, ANDed with kk, to Vx. -/
theorem randomResult : Obligations.RandomResult := by
  refine fun x kk => ⟨decodeWord_encodeWord (.rnd x kk), fun s => ?_⟩
  obtain ⟨hresult, hkept, hmoved, hframe⟩ := setReg_complete s.rndAdvance x (s.rndByte &&& kk)
  refine ⟨_, s.rndByte, rfl, hresult, ?supplied, ?free, rfl, ?bits, hkept, hmoved, ?frame⟩
  case supplied =>
    intro b rest hsupply
    simp [State.rndByte, hsupply]
  case free =>
    intro hsupply
    simp [State.rndByte, hsupply]
  case bits =>
    intro k hk
    rw [hresult, BitVec.getLsbD_and, hk, Bool.and_false]
  case frame =>
    exact ((changesOnly_rndAdvance s).mono (by simp)).trans (hframe.mono (by simp))

section
variable {s : State}

theorem execLdVxK_holds {x : Reg} (h : s.kw = false ∨ s.newlyPressed = 0) :
    execLdVxK x s = .next ({ s with kw := true, keyPrev := s.keys }.hold .awaitKey) := by
  unfold execLdVxK
  split
  case isTrue hkw => rw [if_pos (h.resolve_left (by simp [hkw])), ← hkw]
  case isFalse => rfl

theorem execLdVxK_completes {x : Reg} (hkw : s.kw = true) (hnew : s.newlyPressed ≠ 0) :
    execLdVxK x s =
      .next ({ s with kw := false }.setReg x (lowestKey s.newlyPressed)).complete := by
  rw [execLdVxK, if_pos hkw, if_neg hnew]

/-- Everything LD Vx,K can do. -/
theorem execLdVxK_cases (s : State) (x : Reg) :
    ((s.kw = false ∨ s.newlyPressed = 0) ∧
        execLdVxK x s = .next ({ s with kw := true, keyPrev := s.keys }.hold .awaitKey)) ∨
      (s.kw = true ∧ s.newlyPressed ≠ 0 ∧
        execLdVxK x s = .next ({ s with kw := false }.setReg x (lowestKey s.newlyPressed)).complete) := by
  by_cases hheld : s.kw = false ∨ s.newlyPressed = 0
  · exact .inl ⟨hheld, execLdVxK_holds hheld⟩
  · obtain ⟨hkw, hnew⟩ := not_or.1 hheld
    have hkw : s.kw = true := Bool.eq_true_of_not_eq_false hkw
    exact .inr ⟨hkw, hnew, execLdVxK_completes hkw hnew⟩

theorem State.getLsbD_newlyPressed {k : Nat} (hk : k < 16) :
    s.newlyPressed.getLsbD k = (s.keys.getLsbD k && !s.keyPrev.getLsbD k) := by
  simp only [State.newlyPressed, BitVec.getLsbD_and, BitVec.getLsbD_not, hk, decide_true, Bool.true_and]

/-- A key is not newly pressed when it is up, or was down at the last look. -/
theorem State.getLsbD_newlyPressed_eq_false {k : Nat} (hk : k < 16) :
    s.newlyPressed.getLsbD k = false ↔ (s.keys.getLsbD k = true → s.keyPrev.getLsbD k = true) := by
  rw [State.getLsbD_newlyPressed hk]
  cases s.keys.getLsbD k <;> simp

theorem State.newlyPressed_eq_zero
    (h : ∀ k, k < 16 → s.keys.getLsbD k = true → s.keyPrev.getLsbD k = true) : s.newlyPressed = 0 :=
  BitVec.eq_of_getLsbD_eq fun k hk => by
    simpa using (State.getLsbD_newlyPressed_eq_false hk).2 (h k hk)

end

/-- The smallest key number in the set. -/
theorem toNat_lowestKey {ks : BitVec 16} {k : Nat} (hk : k < 16) (hin : ks.getLsbD k = true)
    (hbelow : ∀ j, j < k → ks.getLsbD j = false) : (lowestKey ks).toNat = k := by
  have hfind : (List.range 16).find? (fun j => ks.getLsbD j) = some k := by
    rw [List.find?_range_eq_some]
    exact ⟨hin, List.mem_range.2 hk, fun j hj => by simp [hbelow j hj]⟩
  rw [lowestKey, hfind, Option.getD_some, BitVec.toNat_ofNat]
  omega

/-- Settles O53: LD Vx,K holds on its first Step and while no key is newly pressed, and else takes the lowest of
the newly pressed keys. -/
theorem keyWaitHoldsThenCompletes : Obligations.KeyWaitHoldsThenCompletes := by
  refine fun x => ⟨decodeWord_encodeWord (.ldVxK x), fun s => ⟨fun h => ?holds, ?completes⟩⟩
  case holds =>
    exact ⟨_, execLdVxK_holds (h.imp_right State.newlyPressed_eq_zero), rfl, rfl, rfl,
      ((changesOnly_setKeyWait s _ _).mono (by simp)).trans ((changesOnly_hold _ _).mono (by simp))⟩
  case completes =>
    intro k hk hkw hdown hup hbelow
    have hin : s.newlyPressed.getLsbD k = true := by
      rw [State.getLsbD_newlyPressed hk, hdown, hup]
      rfl
    have hout : ∀ j, j < k → s.newlyPressed.getLsbD j = false := fun j hj =>
      (State.getLsbD_newlyPressed_eq_false (hj.trans hk)).2 (hbelow j hj)
    have hne : s.newlyPressed ≠ 0 := fun h => by simp [h] at hin
    obtain ⟨hresult, hkept, hmoved, hframe⟩ :=
      setReg_complete { s with kw := false } x (lowestKey s.newlyPressed)
    exact ⟨_, execLdVxK_completes hkw hne, (congrArg BitVec.toNat hresult).trans (toNat_lowestKey hk hin hout),
      rfl, rfl, hkept, hmoved,
      ((changesOnly_setKeyWait s false s.keyPrev).mono (by simp)).trans (hframe.mono (by simp))⟩

end Sys2Proof.Machine
end

section
/-! SUPPORT. The instructions that can write VF (spec/10_state.md R21). -/

namespace Sys2Proof.Machine

theorem vf_mem_dests {q : Quirks} {i : Instr} (h : vf ∈ i.dests q) :
    (q.vfReset = true ∧ ∃ x y, i = .orReg x y ∨ i = .andReg x y ∨ i = .xorReg x y) ∨
    (∃ x y, i = .addReg x y ∨ i = .subReg x y ∨ i = .shr x y ∨ i = .subnReg x y ∨ i = .shl x y) ∨
    (∃ x y n, i = .drw x y n) ∨
    (∃ kk, i = .ldImm vf kk ∨ i = .addImm vf kk ∨ i = .rnd vf kk) ∨
    (∃ y, i = .ldReg vf y ∨ i = .orReg vf y ∨ i = .andReg vf y ∨ i = .xorReg vf y) ∨
    i = .ldVxDt vf ∨ i = .ldVxK vf ∨ i = .loadRegs vf := by
  cases i with
  | orReg | andReg | xorReg => cases hq : q.vfReset <;> simp_all [Instr.dests]
  | loadRegs x =>
    have hx : x = vf := le_antisymm (Fin.le_last x) (by simpa [Instr.dests] using h)
    simp [hx]
  | _ => simp_all [Instr.dests]

/-- Settles O23: a register that changes is a destination of the instruction. -/
theorem writersOfVF : Obligations.WritersOfVF :=
  fun _ _ _ h hne => vf_mem_dests (not_imp_comm.1 (exec_keepsRegsBut h vf) hne)

end Sys2Proof.Machine
end

section
/-! SUPPORT. Where pc goes after an instruction that completes (spec/41_control_flow.md R158). -/

namespace Sys2Proof.Machine

section
variable {s t : State}

theorem exec_ret_pc (h : exec .ret s = .next t) (hok : t.status = .ok) :
    ∃ k : Fin 16, s.sp.val = k.val + 1 ∧ t.pc.toNat = (s.stack[k]).toNat % 4096 := by
  obtain ⟨-, hr⟩ | ⟨k, hk, hr⟩ := exec_ret_cases s <;> cases hr.symm.trans h
  · cases hok
  · exact ⟨k, hk, by simp⟩

theorem exec_call_pc {nnn : Addr} (h : exec (.call nnn) s = .next t) (hok : t.status = .ok) : t.pc = nnn := by
  obtain ⟨-, hr⟩ | ⟨k, -, hr⟩ := exec_call_cases s nnn <;> cases hr.symm.trans h
  · cases hok
  · rfl

theorem exec_jpV0_pc {nnn : Addr} (h : exec (.jpV0 nnn) s = .next t) (hok : t.status = .ok) :
    ∃ r : Reg, r.val = (if s.cfg.quirks.jumping then nnn.toNat / 256 else 0) ∧
      t.pc.toNat = nnn.toNat + (s.reg r).toNat := by
  have hr : (if s.cfg.quirks.jumping then nnn.toNat / 256 else 0) < 16 := by
    have := nnn.isLt
    split <;> omega
  refine ⟨⟨_, hr⟩, rfl, ?_⟩
  rw [← jumpTarget_eq rfl]
  obtain ⟨hle, hr⟩ | ⟨-, hr⟩ := exec_jpV0_cases s nnn <;> cases hr.symm.trans h
  · exact (BitVec.toNat_ofNat _ _).trans (Nat.mod_eq_of_lt (Nat.lt_succ_of_le hle))
  · cases hok

/-- A checked access that completes goes on with pc moved by 2. -/
theorem movedBy_of_orOutOfBounds {α : Type} {r : Except Nat α} {f : α → State}
    (h : s.orOutOfBounds r (fun a => .next (f a).complete) = .next t)
    (hpc : ∀ a, r = .ok a → (f a).pc = s.pc) (hok : t.status = .ok) : MovedBy 2 s t := by
  cases r with
  | ok a =>
    cases h
    exact movedBy_complete_of_pc (hpc a rfl)
  | error info =>
    cases h
    cases hok

theorem movedBy_of_memWrite {a : Nat} {bs : List Byte} {f : State → State}
    (h : s.orOutOfBounds (s.memWrite a bs) (fun u => .next (f u).complete) = .next t)
    (hf : ∀ u, (f u).pc = u.pc) (hok : t.status = .ok) : MovedBy 2 s t :=
  movedBy_of_orOutOfBounds h (fun u hu => by rw [hf, memWrite_eq_ok hu, State.storeBytes_pc]) hok

theorem exec_drw_movedBy {x y : Reg} {n : BitVec 4} (h : exec (.drw x y n) s = .next t)
    (hok : t.status = .ok) : MovedBy 2 s t := by
  obtain ⟨-, hr⟩ | ⟨-, ⟨-, hr⟩ | ⟨-, hr⟩⟩ := execDrw_cases s x y n <;> cases hr.symm.trans h
  · cases hok
  · cases hok
  · exact movedBy_complete_of_pc rfl

theorem exec_ldVxK_movedBy {x : Reg} (h : exec (.ldVxK x) s = .next t) (hok : t.status = .ok) :
    MovedBy 2 s t := by
  obtain ⟨-, hr⟩ | ⟨-, -, hr⟩ := execLdVxK_cases s x <;> cases hr.symm.trans h
  · cases hok
  · exact movedBy_complete_of_pc rfl

end

/-- Settles O24: a completed instruction went to its target, skipped by its condition, or moved on by one
word. -/
theorem programCounterAfterEachInstruction : Obligations.ProgramCounterAfterEachInstruction := by
  refine fun i s t h => ⟨exec_keeps_pc h, fun hok => ?completed⟩
  cases i with
  | jp nnn => cases h; rfl
  | call nnn => exact exec_call_pc h hok
  | ret => exact exec_ret_pc h hok
  | jpV0 nnn => exact exec_jpV0_pc h hok
  | seImm x kk => cases h; simpa using movedBy_skipIf s (s.reg x == kk)
  | sneImm x kk => cases h; simpa using movedBy_skipIf s (s.reg x != kk)
  | seReg x y => cases h; simpa using movedBy_skipIf s (s.reg x == s.reg y)
  | sneReg x y => cases h; simpa using movedBy_skipIf s (s.reg x != s.reg y)
  | skp x =>
    cases h
    simpa [State.keyDown_lowNibble] using movedBy_skipIf s (s.keyDown (s.lowNibble x))
  | sknp x =>
    cases h
    simpa [State.keyDown_lowNibble] using movedBy_skipIf_not s (s.keyDown (s.lowNibble x))
  | cls | ldImm | addImm | ldReg | addReg | subReg | shr | subnReg | shl | ldI | rnd | ldVxDt | ldDtVx |
    ldStVx | addI | ldF =>
    cases h
    exact movedBy_complete_of_pc rfl
  | orReg | andReg | xorReg =>
    cases h
    exact movedBy_complete_of_pc (State.setBitwise_pc s _ _)
  | drw x y n => exact exec_drw_movedBy h hok
  | ldVxK x => exact exec_ldVxK_movedBy h hok
  | ldB x => exact movedBy_of_memWrite (f := id) h (fun _ => rfl) hok
  | storeRegs x => exact movedBy_of_memWrite h (fun u => u.advanceIndex_pc x) hok
  | loadRegs x => exact movedBy_of_orOutOfBounds h (fun bytes _ => (s.setRegs bytes).advanceIndex_pc x) hok

end Sys2Proof.Machine
end

section
/-! SUPPORT. What a Step can answer: an instruction runs, a halted core reports, or an error is entered; and which
parts of the state no Step touches (spec/40_execution_cycle.md R121 to R126; spec/60_exceptions.md R266). -/

namespace Sys2Proof.Machine

section
variable {s t : State}

theorem stepEvent_of_halted (h : s.Halted) : stepEvent s = .next (s.hold .error) := by
  obtain ⟨-, hr⟩ | ⟨herr, -⟩ | ⟨_, _, herr, -⟩ | ⟨_, _, herr, -⟩ := stepEvent_cases s
  · exact hr
  all_goals exact absurd herr h

theorem stepEvent_of_top (herr : s.err = none) (hpc : s.pc = 0xFFF) :
    stepEvent s = .next (s.raise .memoryOutOfBounds 0x1000) := by
  obtain ⟨⟨_, hk⟩, -⟩ | ⟨-, -, hr⟩ | ⟨_, _, -, hfetch, -⟩ | ⟨_, _, -, hfetch, -⟩ := stepEvent_cases s
  · cases herr.symm.trans hk
  · exact hr
  all_goals cases (s.fetchWord_top hpc).symm.trans hfetch

theorem stepEvent_of_decoded {w : Word} {i : Instr} (herr : s.err = none) (hfetch : s.fetchWord = .ok w)
    (hdec : decodeWord w = .ok i) : stepEvent s = exec i s := by
  obtain ⟨⟨_, hk⟩, -⟩ | ⟨-, htop, -⟩ | ⟨_, _, -, hfetch', hdec', -⟩ | ⟨_, _, -, hfetch', hdec', hr⟩ :=
    stepEvent_cases s
  · cases herr.symm.trans hk
  · cases (s.fetchWord_top htop).symm.trans hfetch
  · cases hfetch'.symm.trans hfetch
    cases hdec'.symm.trans hdec
  · cases hfetch'.symm.trans hfetch
    cases hdec'.symm.trans hdec
    exact hr

theorem stepEvent_next (s : State) : ∃ t, stepEvent s = .next t := by
  obtain ⟨-, hr⟩ | ⟨-, -, hr⟩ | ⟨_, _, -, -, -, hr⟩ | ⟨_, i, -, -, -, hr⟩ := stepEvent_cases s
  case inr.inr.inr =>
    obtain ⟨t, ht, -⟩ := outcomes_exec s i
    exact ⟨t, hr.trans ht⟩
  all_goals exact ⟨_, hr⟩

/-- The parts a Step can change: all but the configuration, the schedule, the keys and the result of LoadRom. -/
def stepParts : List Part :=
  [.regs, .index, .pc, .stack, .delay, .sound, .memory, .screen, .draw, .keyWait, .latch, .status, .random]

theorem exec_changesOnly_stepParts {i : Instr} (h : exec i s = .next t) : ChangesOnly stepParts s t :=
  (exec_changesOnly h).mono
    (List.append_subset.2 ⟨by simp [stepParts], List.Subset.trans effects_subset (by simp [stepParts])⟩)

theorem stepEvent_changesOnly (h : stepEvent s = .next t) : ChangesOnly stepParts s t := by
  obtain ⟨-, hr⟩ | ⟨-, -, hr⟩ | ⟨_, _, -, -, -, hr⟩ | ⟨_, i, -, -, -, hr⟩ := stepEvent_cases s <;> rw [hr] at h
  · cases h
    exact (changesOnly_hold s _).mono (by simp [stepParts])
  · cases h
    exact (changesOnly_raise s _ _).mono (by simp [stepParts])
  · cases h
    exact (changesOnly_raise s _ _).mono (by simp [stepParts])
  · exact exec_changesOnly_stepParts h

theorem exec_raised_of_halted {i : Instr} (h : exec i s = .next t) (herr : s.err = none) (hhalted : t.Halted) :
    ∃ k info, k ≠ .romTooLarge ∧ t = s.raise k info := by
  cases exec_outcome h with
  | completed a parts _ => exact absurd ((parts .latch (by simp [latch_notMem_effects])).1.trans herr) hhalted
  | heldForKey | heldForBlank => exact absurd herr hhalted
  | raised k info hi =>
    refine ⟨k, info, ?_, rfl⟩
    rintro rfl
    cases i <;> cases hi

/-- A Step that enters an error is an error entry and nothing else. -/
theorem stepEvent_raised_of_halted (h : stepEvent s = .next t) (herr : s.err = none) (hhalted : t.Halted) :
    ∃ k info, k ≠ .romTooLarge ∧ t = s.raise k info := by
  obtain ⟨⟨_, hk⟩, -⟩ | ⟨-, -, hr⟩ | ⟨_, _, -, -, -, hr⟩ | ⟨_, i, -, -, -, hr⟩ := stepEvent_cases s
  · cases herr.symm.trans hk
  · cases hr.symm.trans h
    exact ⟨.memoryOutOfBounds, _, by decide, rfl⟩
  · cases hr.symm.trans h
    exact ⟨.invalidOpcode, _, by decide, rfl⟩
  · exact exec_raised_of_halted (hr.symm.trans h) herr hhalted

/-- A Step that reports a hold ran an instruction that holds. -/
theorem stepEvent_executed (h : stepEvent s = .next t) (herr : s.err = none) (hst : t.status ≠ .error) :
    ∃ w i, s.fetchWord = .ok w ∧ decodeWord w = .ok i ∧ ExecOutcome i s t := by
  obtain ⟨⟨_, hk⟩, -⟩ | ⟨-, -, hr⟩ | ⟨_, _, -, -, -, hr⟩ | ⟨w, i, -, hfetch, hdec, hr⟩ := stepEvent_cases s
  · cases herr.symm.trans hk
  · cases hr.symm.trans h
    exact absurd rfl hst
  · cases hr.symm.trans h
    exact absurd rfl hst
  · exact ⟨w, i, hfetch, hdec, exec_outcome (hr.symm.trans h)⟩

end

/-- Two bytes decode as the word they make. -/
theorem decodeWord_of_decode {b0 b1 : Byte} {i : Instr} (h : decode [b0, b1] = .ok (i, [])) :
    decodeWord (wordOfBytes b0 b1) = .ok i := by
  unfold decode at h
  cases hw : decodeWord (wordOfBytes b0 b1) <;> simp_all

/-- Settles O6: the two bytes at pc are the word fetched, and it decodes as they do. -/
theorem stepRunsDecodedInstruction : Obligations.StepRunsDecodedInstruction := by
  intro s u i hstep herr hpc hdec
  exact hstep.step_eq.trans (stepEvent_of_decoded herr (u.fetchWord_ok hpc) (decodeWord_of_decode hdec))

/-- Settles O7: every event is delivered, and a Step answers a next state. -/
theorem everyStateHasASuccessor : Obligations.EveryStateHasASuccessor := by
  intro s
  cases hin : s.inputs with
  | nil => exact step_nil s hin ▸ stepEvent_next s
  | cons e rest =>
    rw [step_cons s hin]
    cases e with
    | step => exact stepEvent_next _
    | reset | loadRom | tick | keypadWrite => exact ⟨_, rfl⟩

/-- Settles O8: the latch is checked before anything else. -/
theorem haltedStepChangesNothing : Obligations.HaltedStepChangesNothing :=
  fun _ _ hstep hhalted => hstep.step_eq.trans (stepEvent_of_halted hhalted)

/-- Settles O10: the second byte of the fetch lies at 0x1000. -/
theorem fetchAtTopRaises : Obligations.FetchAtTopRaises := fun _ u hstep herr hpc =>
  ⟨_, hstep.step_eq.trans (stepEvent_of_top herr hpc), raised_raise u _ _⟩

/-- Settles O12: a Step that latches an error is one error entry. -/
theorem raisingStepIsPrecise : Obligations.RaisingStepIsPrecise := by
  intro s u t hstep herr h hhalted
  obtain ⟨k, info, hk, rfl⟩ := stepEvent_raised_of_halted (hstep.step_eq.symm.trans h) herr hhalted
  exact ⟨rfl, fun e => hk (Option.some.inj e), changesOnly_raise u k info⟩

/-- Settles O13: among the outcomes of an instruction only the two holds report a wait. -/
theorem heldStepChangesNothing : Obligations.HeldStepChangesNothing := by
  intro s u t hstep herr h
  rw [hstep.step_eq] at h
  refine ⟨fun hst => ?key, fun hst => ?blank⟩
  case key =>
    obtain ⟨w, i, hfetch, hdec, ho⟩ := stepEvent_executed h herr (by simp [hst])
    cases ho with
    | heldForKey x hi =>
      exact ⟨((changesOnly_setKeyWait u _ _).mono (by simp)).trans ((changesOnly_hold _ _).mono (by simp)),
        rfl, w, x, hfetch, hi ▸ hdec⟩
    | completed | heldForBlank | raised => cases hst
  case blank =>
    obtain ⟨w, i, hfetch, hdec, ho⟩ := stepEvent_executed h herr (by simp [hst])
    cases ho with
    | heldForBlank x y n hi hw =>
      obtain ⟨hq, hdw⟩ := State.drawMustWait_iff.1 hw
      exact ⟨changesOnly_hold u _, hq, hdw, w, x, y, n, hfetch, hi ▸ hdec⟩
    | completed | heldForKey | raised => cases hst

end Sys2Proof.Machine
end

section
/-! SUPPORT. A finished program, and a word placed where the next Step fetches it
(spec/70_reset_and_hazards.md R308; notes/assumptions/13.md). -/

namespace Sys2Proof.Machine

section
variable {s t : State}

/-- The word of a jump to `a` is 0x1000 with the address in its low bits. -/
theorem jump_word (a : Addr) : (0x1000 ||| a.setWidth 16 : Word) = encodeWord (.jp a) := by
  show _ = 0x1#4 ++ a
  apply BitVec.eq_of_getLsbD_eq
  intro i hi
  simp only [BitVec.getLsbD_or, BitVec.getLsbD_setWidth, BitVec.getLsbD_append]
  interval_cases i <;> simp

theorem stepEvent_of_finished (h : s.Finished) : stepEvent s = .next { s with status := .ok } := by
  obtain ⟨herr, -, hfetch⟩ := h
  rw [jump_word] at hfetch
  exact stepEvent_of_decoded herr hfetch (decodeWord_encodeWord _)

theorem State.placeAddr_ne_top : s.placeAddr ≠ 0xFFF := by
  unfold State.placeAddr
  split
  · decide
  · assumption

/-- The Step after a placed word fetches that word. -/
theorem fetchWord_placeWord (w : Word) (hm : Memory.wf s.cfg s.mem = true) :
    (s.placeWord w).fetchWord = .ok w := by
  have hroom : s.placeAddr.toNat + 2 ≤ 4096 := by
    have hne : s.placeAddr.toNat ≠ 0xFFF := fun e => s.placeAddr_ne_top (BitVec.eq_of_toNat_eq e)
    have hlt := s.placeAddr.isLt
    omega
  have hbyte {k : Nat} (hk : k < 2) :
      (s.placeWord w).byteAt (s.placeAddr.toNat + k) = (bytesOfWord w)[k] :=
    s.byteAt_storeBytes_inside hm hroom hk
  calc (s.placeWord w).fetchWord
    _ = .ok (wordOfBytes ((s.placeWord w).byteAt s.placeAddr.toNat)
          ((s.placeWord w).byteAt (s.placeAddr.toNat + 1))) :=
      (s.placeWord w).fetchWord_ok s.placeAddr_ne_top
    _ = .ok (wordOfBytes (w.extractLsb' 8 8) (w.extractLsb' 0 8)) :=
      congrArg Except.ok (congrArg₂ wordOfBytes (hbyte (k := 0) (by decide)) (hbyte (k := 1) (by decide)))
    _ = .ok w := congrArg Except.ok (wordOfBytes_bytesOfWord w)

end

/-- Settles O25: the Step runs the jump, which goes to where pc is. -/
theorem finishedProgramIsAFixedPoint : Obligations.FinishedProgramIsAFixedPoint :=
  fun _ _ hstep hfin => hstep.step_eq.trans (stepEvent_of_finished hfin)

/-- Settles O26: each Step leaves a finished state with the rest of the schedule. -/
theorem finishedProgramStaysSafe : Obligations.FinishedProgramStaysSafe := by
  intro k
  induction k with
  | zero => exact fun s hfin _ hhalted => hhalted hfin.1
  | succ k ih =>
    refine fun s hfin hsteps => ⟨fun hhalted => hhalted hfin.1, fun t h => ?_⟩
    obtain ⟨u, hstep, hu, hrest⟩ : ∃ u, NextIsStep s u ∧ u.Finished ∧ ∀ e ∈ u.inputs, e = .step := by
      cases hin : s.inputs with
      | nil => exact ⟨s, .inl ⟨hin, rfl⟩, hfin, hsteps⟩
      | cons e rest =>
        rw [hin, List.forall_mem_cons] at hsteps
        exact ⟨{ s with inputs := rest }, .inr ⟨rest, by rw [hin, hsteps.1], rfl⟩, hfin, hsteps.2⟩
    cases (finishedProgramIsAFixedPoint s u hstep hu).symm.trans h
    exact ih _ hu hrest

/-- Settles O27: the word placed is fetched, and decodes to the instruction. -/
theorem placedInstructionRunsNext : Obligations.PlacedInstructionRunsNext := by
  intro s i hm
  have hplace : s.withFetchWord 16 (encodeWord i).toNat = s.placeWord (encodeWord i) := by
    unfold State.withFetchWord
    rw [Nat.mod_eq_of_lt (encodeWord i).isLt, BitVec.ofNat_toNat, BitVec.setWidth_eq]
  rw [hplace]
  exact (step_nil _ rfl).trans
    (stepEvent_of_decoded rfl (fetchWord_placeWord _ hm) (decodeWord_encodeWord i))

end Sys2Proof.Machine
end

section
/-! SUPPORT. The host's events other than Step: what Tick, LoadRom and Reset change, and what no event changes
(spec/40_execution_cycle.md R127; spec/20_memory.md R74; spec/70_reset_and_hazards.md R300). -/

namespace Sys2Proof.Machine

section
variable {s t : State}

theorem ChangesOnly.of_keeps {p : Part} {ps : List Part} (h : ChangesOnly (p :: ps) s t) (hp : Keeps s t p) :
    ChangesOnly ps s t := fun q hq => by
  by_cases hqp : q = p
  · exact hqp ▸ hp
  · exact h q (by simp [hqp, hq])

/-! ## Tick -/

theorem changesOnly_tick (s : State) : ChangesOnly [.delay, .sound, .draw] s s.tick := by
  intro p hp
  cases p <;> simp [Keeps, State.reg, State.byteAt, State.pixelAt] at hp ⊢

/-- A timer counts down and stops at 0. -/
theorem toNat_tickTimer (b : Byte) : (tickTimer b).toNat = b.toNat - 1 := by
  unfold tickTimer
  split
  case isTrue h => rw [h]; rfl
  case isFalse h =>
    have hpos : b.toNat ≠ 0 := fun e => h (BitVec.eq_of_toNat_eq e)
    exact BitVec.toNat_sub_of_le (BitVec.le_def.2 (Nat.one_le_iff_ne_zero.2 hpos))

theorem toNat_tickTimer_eq_ite (b : Byte) :
    (tickTimer b).toNat = if 0 < b.toNat then b.toNat - 1 else 0 := by
  rw [toNat_tickTimer]
  split <;> omega

theorem State.soundActive_eq (s : State) : s.soundActive = decide (0 < s.st.toNat) := by
  have h : s.st ≠ 0 ↔ 0 < s.st.toNat := by
    rw [Nat.pos_iff_ne_zero, ne_eq, ne_eq, BitVec.toNat_eq]
    rfl
  exact decide_eq_decide.2 h

/-! ## LoadRom -/

theorem changesOnly_loadRom (s : State) (bytes : List Byte) :
    ChangesOnly [.keyWait, .memory, .loadResult] s (s.loadRom bytes) := by
  intro p hp
  cases p <;> simp [Keeps, State.reg, State.pixelAt] at hp ⊢

theorem loadRom_of_le {bytes : List Byte} (h : bytes.length ≤ 3584) :
    s.loadRom bytes = { s.storeBytes 0x200 bytes with kw := false, loadError := none } :=
  if_pos (decide_eq_true h)

theorem loadRom_of_lt {bytes : List Byte} (h : 3584 < bytes.length) :
    s.loadRom bytes = { s with loadError := some .romTooLarge } :=
  if_neg (by simp [romFits, h])

/-- A LoadRom clears kw, so a core that is not waiting for a key keeps its key-wait state. -/
theorem loadRom_keeps_keyWait (bytes : List Byte) (h : s.kw = false) : Keeps s (s.loadRom bytes) .keyWait :=
  ⟨by simp [h], State.loadRom_keyPrev s bytes⟩

theorem changesOnly_setLoadError (s : State) (e : Option ErrorKind) :
    ChangesOnly [.loadResult] s { s with loadError := e } := by
  intro p hp
  cases p <;> simp [Keeps, State.reg, State.byteAt, State.pixelAt] at hp ⊢

end

/-- Settles O14: the event is taken off the schedule, then the timers count down and the wait ends. -/
theorem tickCountsDownAndEndsBlankWait : Obligations.TickCountsDownAndEndsBlankWait := by
  intro s rest h
  have hticked : ChangesOnly [.delay, .sound, .draw, .schedule] { s with inputs := rest } _ :=
    (changesOnly_tick _).mono (by simp)
  exact ⟨_, step_cons s h, toNat_tickTimer_eq_ite s.dt, toNat_tickTimer_eq_ite s.st, rfl, rfl,
    hticked.of_taken (by simp)⟩

/-- Settles O15: by induction on the number of Ticks. -/
theorem timersStopAtZero : Obligations.TimersStopAtZero := by
  intro k
  induction k with
  | zero => exact fun s _ _ => ⟨s, rfl, rfl, rfl, s.soundActive_eq⟩
  | succ k ih =>
    intro s rest h
    have hstep : step s = .next (State.tick { s with inputs := List.replicate k .tick ++ rest }) :=
      step_cons s h
    obtain ⟨t, hrun, hdt, hst, hsound⟩ := ih (State.tick { s with inputs := List.replicate k .tick ++ rest }) rest rfl
    simp only [State.tick_dt, State.tick_st, toNat_tickTimer] at hdt hst hsound
    refine ⟨t, (core_run_succ k hstep).trans hrun, ?_, ?_, ?_⟩
    · omega
    · omega
    · rw [hsound, decide_eq_decide]
      omega

/-- Settles O17: a ROM that fits is stored inside memory, and a longer one is only reported. -/
theorem loadRomCopiesOrRefuses : Obligations.LoadRomCopiesOrRefuses := by
  intro s bytes rest hm h
  refine ⟨_, step_cons s h, State.loadRom_inputs _ bytes, fun hle => ?fits, fun hlt => ?refused⟩
  case fits =>
    have hframe : ChangesOnly [.memory, .keyWait, .loadResult, .schedule] { s with inputs := rest } _ :=
      (changesOnly_loadRom _ bytes).mono (by simp)
    refine ⟨?_, ?_, State.loadRom_keyPrev _ bytes, ?stored, ?outside, hframe.of_taken (by simp)⟩
    all_goals rw [loadRom_of_le hle]
    case stored => exact fun k hk => s.byteAt_storeBytes_inside hm (by omega) hk
    case outside => exact fun b hb => s.byteAt_storeBytes_outside hb
  case refused =>
    rw [loadRom_of_lt hlt]
    exact ⟨rfl, ((changesOnly_setLoadError _ _).mono (by simp)).of_taken (by simp)⟩

/-- Settles O18: every field has its reset value, and a memory that lists nothing reads as the reset contents. -/
theorem resetRestoresEveryElement : Obligations.ResetRestoresEveryElement := by
  intro s rest h
  have hbyte (a : Nat) : ({ s with inputs := rest } : State).resetEvent.byteAt a = resetByte s.cfg a :=
    State.byteAt_of_mem_nil _ rfl a
  refine ⟨_, step_cons s h, rfl, fun x => ?regs, rfl, rfl, fun k => ?stack, rfl, rfl, fun g r => ?font,
    fun a ha => ?zero, fun x y => pixel_clear (x, y), rfl, rfl, rfl, rfl, rfl, rfl, rfl, rfl, rfl, rfl⟩
  case regs => simp [State.reg]
  case stack => simp
  case font => exact (hbyte _).trans (resetByte_glyph s.cfg g r)
  case zero => exact (hbyte a).trans (resetByte_outside s.cfg ha)

theorem stepEvent_keeps_config {s t : State} (h : stepEvent s = .next t) :
    t.cfg = s.cfg ∧ t.inputs = s.inputs :=
  ⟨stepEvent_changesOnly h .config (by decide), stepEvent_changesOnly h .schedule (by decide)⟩

/-- Settles O21: a Step touches neither part, and each other event keeps the configuration by its definition. -/
theorem configurationNeverChanges : Obligations.ConfigurationNeverChanges := by
  intro s t h
  cases hin : s.inputs with
  | nil =>
    rw [step_nil s hin] at h
    obtain ⟨hcfg, hinputs⟩ := stepEvent_keeps_config h
    exact ⟨hcfg, hinputs.trans hin⟩
  | cons e rest =>
    rw [step_cons s hin] at h
    cases e with
    | step => exact stepEvent_keeps_config h
    | loadRom bytes =>
      cases h
      exact ⟨State.loadRom_cfg _ bytes, State.loadRom_inputs _ bytes⟩
    | reset | tick | keypadWrite =>
      cases h
      exact ⟨rfl, rfl⟩

/-- Settles O9: a halted core does not execute, and the events that are not its own leave the latch. -/
theorem onlyResetRevivesHaltedCore : Obligations.OnlyResetRevivesHaltedCore := by
  intro s t hinv hhalted hreset h
  have hkw : s.kw = false := by
    by_contra hkw
    exact hhalted (hinv.keyWait (Bool.eq_true_of_not_eq_false hkw)).1
  cases hin : s.inputs with
  | nil =>
    cases (stepEvent_of_halted hhalted).symm.trans ((step_nil s hin).symm.trans h)
    exact ⟨hhalted, (changesOnly_hold s _).mono (by simp)⟩
  | cons e rest =>
    rw [step_cons s hin] at h
    have hhalted' : ({ s with inputs := rest } : State).Halted := hhalted
    cases e with
    | reset => simp [hin] at hreset
    | step =>
      cases (stepEvent_of_halted hhalted').symm.trans h
      exact ⟨hhalted, ((changesOnly_hold _ _).mono (by simp)).of_taken (by simp)⟩
    | tick =>
      cases h
      exact ⟨hhalted, ((changesOnly_tick _).mono (by simp)).of_taken (by simp)⟩
    | keypadWrite ks =>
      cases h
      exact ⟨hhalted, ((changesOnly_keypadWrite _ ks).mono (by simp)).of_taken (by simp)⟩
    | loadRom bytes =>
      cases h
      have hframe := (changesOnly_loadRom { s with inputs := rest } bytes).of_keeps
        (loadRom_keeps_keyWait bytes hkw)
      refine ⟨?_, (hframe.mono (by simp)).of_taken (by simp)⟩
      rw [State.Halted, State.loadRom_err]
      exact hhalted

end Sys2Proof.Machine
end

section
/-! SUPPORT. What an executed instruction does to the elements the invariant speaks of: the error it records,
memory, and the stack entries (spec/10_state.md R42; spec/60_exceptions.md R260 to R265). -/

namespace Sys2Proof.Machine

/-- The values an error of a kind may record (spec/60_exceptions.md R260, R261, R265). -/
def LegalInfo : ErrorKind → Nat → Prop
  | .invalidOpcode, n => n ≤ 0xFFFF ∧ wordWellFormed (BitVec.ofNat 16 n) = false
  | .stackOverflow, n | .stackUnderflow, n => n = 0
  | .memoryOutOfBounds, n => 0x1000 ≤ n ∧ n ≤ 0x1000E
  | .romTooLarge, _ => False

/-- A checked access through I records an address of 16 bits, above 0xFFF. -/
theorem legalInfo_max_index (a : BitVec 16) : LegalInfo .memoryOutOfBounds (max a.toNat 0x1000) := by
  have := a.isLt
  constructor <;> omega

section
variable {s t : State}

/-- An instruction ends with ERROR only by an error entry, with a value legal for its kind. -/
theorem exec_raised {i : Instr} (h : exec i s = .next t) (hst : t.status = .error) :
    ∃ k n, LegalInfo k n ∧ t = s.raise k n := by
  cases i with
  | ret =>
    obtain ⟨-, hr⟩ | ⟨_, -, hr⟩ := exec_ret_cases s <;> cases hr.symm.trans h
    · exact ⟨.stackUnderflow, 0, rfl, rfl⟩
    · cases hst
  | call nnn =>
    obtain ⟨-, hr⟩ | ⟨_, -, hr⟩ := exec_call_cases s nnn <;> cases hr.symm.trans h
    · exact ⟨.stackOverflow, 0, rfl, rfl⟩
    · cases hst
  | jpV0 nnn =>
    obtain ⟨-, hr⟩ | ⟨hlt, hr⟩ := exec_jpV0_cases s nnn <;> cases hr.symm.trans h
    · cases hst
    · have hmax : s.jumpTarget nnn ≤ 0xFFF + 0xFF :=
        Nat.add_le_add (Nat.le_of_lt_succ nnn.isLt) (Nat.le_of_lt_succ (s.jumpOffset nnn).isLt)
      exact ⟨.memoryOutOfBounds, _, ⟨hlt, hmax.trans (by decide)⟩, rfl⟩
  | ldB x =>
    obtain ⟨-, hr⟩ | ⟨-, hr⟩ := exec_ldB_cases s x <;> cases hr.symm.trans h
    · exact ⟨_, _, legalInfo_max_index s.i, rfl⟩
    · cases hst
  | storeRegs x =>
    obtain ⟨-, hr⟩ | ⟨-, hr⟩ := exec_storeRegs_cases s x <;> cases hr.symm.trans h
    · exact ⟨_, _, legalInfo_max_index s.i, rfl⟩
    · cases hst
  | loadRegs x =>
    obtain ⟨-, hr⟩ | ⟨-, hr⟩ := exec_loadRegs_cases s x <;> cases hr.symm.trans h
    · exact ⟨_, _, legalInfo_max_index s.i, rfl⟩
    · cases hst
  | drw x y n =>
    obtain ⟨-, hr⟩ | ⟨-, ⟨-, hr⟩ | ⟨-, hr⟩⟩ := execDrw_cases s x y n <;> cases hr.symm.trans h
    · exact ⟨_, _, legalInfo_max_index s.i, rfl⟩
    · cases hst
    · cases hst
  | _ =>
    cases exec_outcome h with
    | completed | heldForKey | heldForBlank => cases hst
    | raised k info hi => cases hi

/-- An instruction leaves the listing of memory alone, or stores bytes from I on, inside memory. -/
theorem exec_mem {i : Instr} (h : exec i s = .next t) : t.mem = s.mem ∨
    ∃ bs : List Byte, s.i.toNat + bs.length ≤ 0x1000 ∧ t.mem = Memory.writeBytes s.cfg s.i.toNat bs s.mem := by
  cases i with
  | ldB x =>
    obtain ⟨-, hr⟩ | ⟨hin, hr⟩ := exec_ldB_cases s x <;> cases hr.symm.trans h
    · exact .inl rfl
    · exact .inr ⟨bcdDigits (s.reg x), Nat.succ_le_succ hin, rfl⟩
  | storeRegs x =>
    obtain ⟨-, hr⟩ | ⟨hin, hr⟩ := exec_storeRegs_cases s x <;> cases hr.symm.trans h
    · exact .inl rfl
    · refine .inr ⟨s.regsUpTo x, ?_, State.advanceIndex_mem _ x⟩
      rw [State.regsUpTo_length]
      exact Nat.succ_le_succ hin
  | loadRegs x =>
    obtain ⟨-, hr⟩ | ⟨-, hr⟩ := exec_loadRegs_cases s x <;> cases hr.symm.trans h
    · exact .inl rfl
    · exact .inl (State.advanceIndex_mem _ x)
  | ret =>
    obtain ⟨-, hr⟩ | ⟨_, -, hr⟩ := exec_ret_cases s <;> cases hr.symm.trans h <;> exact .inl rfl
  | call nnn =>
    obtain ⟨-, hr⟩ | ⟨_, -, hr⟩ := exec_call_cases s nnn <;> cases hr.symm.trans h <;> exact .inl rfl
  | jpV0 nnn =>
    obtain ⟨-, hr⟩ | ⟨-, hr⟩ := exec_jpV0_cases s nnn <;> cases hr.symm.trans h <;> exact .inl rfl
  | drw x y n =>
    obtain ⟨-, hr⟩ | ⟨-, ⟨-, hr⟩ | ⟨-, hr⟩⟩ := execDrw_cases s x y n <;> cases hr.symm.trans h <;>
      exact .inl rfl
  | ldVxK x =>
    obtain ⟨-, hr⟩ | ⟨-, -, hr⟩ := execLdVxK_cases s x <;> cases hr.symm.trans h <;> exact .inl rfl
  | orReg | andReg | xorReg =>
    cases h
    exact .inl (State.setBitwise_mem s _ _)
  | _ =>
    cases h
    exact .inl rfl

theorem exec_keeps_cfg {i : Instr} (h : exec i s = .next t) : t.cfg = s.cfg :=
  exec_changesOnly_stepParts h .config (by decide)

theorem exec_keeps_wf {i : Instr} (h : exec i s = .next t) (hm : Memory.wf s.cfg s.mem = true) :
    Memory.wf t.cfg t.mem = true := by
  rw [exec_keeps_cfg h]
  obtain hmem | ⟨bs, hin, hmem⟩ := exec_mem h <;> rw [hmem]
  · exact hm
  · exact Memory.wf_writeBytes s.cfg bs hin hm

/-- CALL pushes 12 bits, and RET keeps the entries. -/
theorem exec_keeps_stackHigh {i : Instr} (h : exec i s = .next t)
    (hs : ∀ k : Fin 16, s.stack[k] ≤ 0x0FFF) (k : Fin 16) : t.stack[k] ≤ 0x0FFF := by
  by_cases hkept : Keeps s t .stack
  · rw [hkept.2]
    exact hs k
  obtain rfl | ⟨nnn, rfl⟩ := stack_mem_effects (mem_effects_of_not_keeps h hkept (by decide))
  · obtain ⟨-, hr⟩ | ⟨_, -, hr⟩ := exec_ret_cases s <;> cases hr.symm.trans h <;> exact hs k
  · obtain ⟨-, hr⟩ | ⟨j, -, hr⟩ := exec_call_cases s nnn <;> cases hr.symm.trans h
    · exact hs k
    · have hpushed : s.npc.setWidth 16 ≤ 0x0FFF := by
        rw [BitVec.le_def, BitVec.toNat_setWidth_of_le (by decide)]
        exact Nat.le_of_lt_succ s.npc.isLt
      simp only [State.finish_stack, Fin.getElem_fin, Vector.getElem_set]
      split
      · exact hpushed
      · exact hs k

/-- A display wait after an instruction needs the quirk: it was there before, or a DRW began it. -/
theorem displayWait_of_exec_waitBlank {i : Instr} (h : exec i s = .next t)
    (hs : s.dw = .waitBlank → s.cfg.quirks.displayWait = true) (hdw : t.dw = .waitBlank) :
    s.cfg.quirks.displayWait = true := by
  by_cases hkept : t.dw = s.dw
  · exact hs (hkept.symm.trans hdw)
  · exact (draw_mem_effects (mem_effects_of_not_keeps (p := .draw) h hkept (by decide))).1

/-- After a completed instruction kw is 0, if it was 1 at most for an LD Vx,K. -/
theorem exec_completed_kw {i : Instr} (h : exec i s = .next t) (hok : t.status = .ok)
    (hs : s.kw = true → ∃ x, i = .ldVxK x) : t.kw = false := by
  by_cases hi : ∃ x, i = .ldVxK x
  · obtain ⟨x, rfl⟩ := hi
    obtain ⟨-, hr⟩ | ⟨-, -, hr⟩ := execLdVxK_cases s x <;> cases hr.symm.trans h
    · cases hok
    · rfl
  · have hkept : Keeps s t .keyWait := by
      by_contra hk
      exact hi (keyWait_mem_effects (mem_effects_of_not_keeps h hk (by decide)))
    rw [hkept.1, ← Bool.not_eq_true]
    exact mt hs hi

end
end Sys2Proof.Machine
end

section
/-! SUPPORT. The invariant of the machine: it holds after Reset, and every event keeps it
(spec/10_state.md R42). -/

namespace Sys2Proof.Machine

section
variable {s t : State}

theorem inv_resetEvent (s : State) : s.resetEvent.Inv where
  memory := rfl
  stackHigh := by simp
  drawWait := nofun
  keyWait := nofun
  latchKind := nofun
  infoZero := fun _ => rfl
  infoWord := nofun
  infoAddress := nofun
  loadKind := .inl rfl

theorem State.Inv.setInputs (hs : s.Inv) (es : List HostEvent) : ({ s with inputs := es } : State).Inv :=
  { hs with }

theorem State.Inv.hold (hs : s.Inv) (why : Status) : (s.hold why).Inv := { hs with }

theorem State.Inv.tick (hs : s.Inv) : s.tick.Inv := { hs with drawWait := nofun }

theorem State.Inv.keypadWrite (hs : s.Inv) (ks : BitVec 16) : (s.keypadWrite ks).Inv := { hs with }

theorem State.Inv.loadRom (hs : s.Inv) (bytes : List Byte) : (s.loadRom bytes).Inv := by
  obtain hlt | hle := Nat.lt_or_ge 3584 bytes.length
  · rw [loadRom_of_lt hlt]
    exact { hs with loadKind := .inr rfl }
  · rw [loadRom_of_le hle]
    exact { hs with
      memory := Memory.wf_writeBytes s.cfg bytes (by omega) hs.memory
      keyWait := nofun
      loadKind := .inl rfl }

/-- An error entry with a legal value keeps the invariant, outside a key wait. -/
theorem State.Inv.raise (hs : s.Inv) (hkw : s.kw = false) {k : ErrorKind} {n : Nat} (hn : LegalInfo k n) :
    (s.raise k n).Inv := by
  have hwait : s.kw ≠ true := by simp [hkw]
  cases k with
  | invalidOpcode =>
    obtain ⟨hle, hw⟩ := hn
    refine { hs with
      keyWait := fun h => absurd h hwait, latchKind := nofun, infoZero := nofun, infoWord := fun _ => ?_,
      infoAddress := nofun }
    have hbits : (BitVec.ofNat 17 n).setWidth 16 = BitVec.ofNat 16 n := BitVec.eq_of_toNat_eq (by simp)
    refine ⟨?_, (congrArg wordWellFormed hbits).trans hw⟩
    rw [State.raise_errInfo, BitVec.toNat_ofNat]
    omega
  | stackOverflow | stackUnderflow =>
    cases hn
    exact { hs with
      keyWait := fun h => absurd h hwait, latchKind := nofun, infoZero := fun _ => rfl, infoWord := nofun,
      infoAddress := nofun }
  | memoryOutOfBounds =>
    obtain ⟨hlow, hhigh⟩ := hn
    refine { hs with
      keyWait := fun h => absurd h hwait, latchKind := nofun, infoZero := nofun, infoWord := nofun,
      infoAddress := fun _ => ?_ }
    rw [State.raise_errInfo, BitVec.toNat_ofNat]
    omega
  | romTooLarge => cases hn

/-- A completed instruction keeps the invariant, if it is LD Vx,K whenever kw is 1. -/
theorem State.Inv.of_completed (hs : s.Inv) {i : Instr} (herr : s.err = none)
    (hkw : s.kw = true → ∃ x, i = .ldVxK x) (h : exec i s = .next t) (hok : t.status = .ok) : t.Inv := by
  obtain ⟨hlatch, hinfo⟩ : Keeps s t .latch := (exec_keeps_latch h).resolve_right fun hst => by simp [hok] at hst
  have herr' : t.err = none := hlatch.trans herr
  exact {
    memory := exec_keeps_wf h hs.memory
    stackHigh := exec_keeps_stackHigh h hs.stackHigh
    drawWait := fun hdw => exec_keeps_cfg h ▸ displayWait_of_exec_waitBlank h hs.drawWait hdw
    keyWait := fun hk => nomatch (exec_completed_kw h hok hkw).symm.trans hk
    latchKind := by simp [herr']
    infoZero := fun _ => hinfo.trans (hs.infoZero (.inl herr))
    infoWord := fun hk => nomatch herr'.symm.trans hk
    infoAddress := fun hk => nomatch herr'.symm.trans hk
    loadKind := by
      rw [show t.loadError = s.loadError from exec_changesOnly_stepParts h .loadResult (by decide)]
      exact hs.loadKind }

/-- An instruction fetched at pc keeps the invariant. -/
theorem State.Inv.of_exec (hs : s.Inv) {w : Word} {i : Instr} (herr : s.err = none) (hfetch : s.fetchWord = .ok w)
    (hdec : decodeWord w = .ok i) (h : exec i s = .next t) : t.Inv := by
  have hkw : s.kw = true → ∃ x, i = .ldVxK x := by
    intro hk
    obtain ⟨-, w', x, hfetch', hdec'⟩ := hs.keyWait hk
    cases hfetch.symm.trans hfetch'
    cases hdec.symm.trans hdec'
    exact ⟨x, rfl⟩
  cases exec_outcome h with
  | heldForKey x hi => exact { hs with keyWait := fun _ => ⟨herr, w, x, hfetch, hi ▸ hdec⟩ }
  | heldForBlank => exact hs.hold _
  | raised k info hi =>
    obtain ⟨k', n, hn, heq⟩ := exec_raised h rfl
    rw [heq]
    refine hs.raise (Bool.eq_false_of_not_eq_true fun hk => ?_) hn
    obtain ⟨x, rfl⟩ := hkw hk
    cases hi
  | completed => exact hs.of_completed herr hkw h rfl

/-- A Step keeps the invariant: it reports a halted core, enters an error at the fetch or the decode, where no
Fx0A waits, or executes an instruction. -/
theorem State.Inv.of_stepEvent (hs : s.Inv) (h : stepEvent s = .next t) : t.Inv := by
  obtain ⟨-, hr⟩ | ⟨-, hpc, hr⟩ | ⟨w, e, -, hfetch, hdec, hr⟩ | ⟨w, i, herr, hfetch, hdec, hr⟩ :=
    stepEvent_cases s
  · cases hr.symm.trans h
    exact hs.hold _
  · cases hr.symm.trans h
    refine hs.raise (Bool.eq_false_of_not_eq_true fun hk => ?_) ⟨Nat.le_refl _, by decide⟩
    obtain ⟨-, w, x, hfetch, -⟩ := hs.keyWait hk
    cases (s.fetchWord_top hpc).symm.trans hfetch
  · cases hr.symm.trans h
    refine hs.raise (Bool.eq_false_of_not_eq_true fun hk => ?_) ⟨Nat.le_of_lt_succ w.isLt, ?_⟩
    · obtain ⟨-, w', x, hfetch', hdec'⟩ := hs.keyWait hk
      cases hfetch.symm.trans hfetch'
      cases hdec.symm.trans hdec'
    · rw [BitVec.ofNat_toNat, BitVec.setWidth_eq, ← Bool.not_eq_true]
      intro hw
      obtain ⟨i, hi⟩ := decodeWord_of_wordWellFormed hw
      cases hdec.symm.trans hi
  · exact hs.of_exec herr hfetch hdec (hr.symm.trans h)

end

/-- Settles O19: a core that has just been built is one that has just been reset. -/
theorem resetStateMeetsInvariant : Obligations.ResetStateMeetsInvariant :=
  ⟨fun c => inv_resetEvent (State.resetWith c), inv_resetEvent State.reset⟩

/-- Settles O20: the event is taken off the schedule and then delivered, and each kind of event keeps the
invariant. -/
theorem everyEventKeepsInvariant : Obligations.EveryEventKeepsInvariant := by
  intro s t hs h
  cases hin : s.inputs with
  | nil => exact hs.of_stepEvent ((step_nil s hin).symm.trans h)
  | cons e rest =>
    rw [step_cons s hin] at h
    have hu := hs.setInputs rest
    cases e with
    | step => exact hu.of_stepEvent h
    | reset =>
      cases h
      exact inv_resetEvent _
    | loadRom bytes =>
      cases h
      exact hu.loadRom bytes
    | tick =>
      cases h
      exact hu.tick
    | keypadWrite ks =>
      cases h
      exact hu.keypadWrite ks

end Sys2Proof.Machine
end

section
/-! SUPPORT. What toggling a list of pixels does to the framebuffer, and where the pixels of a sprite land
(spec/45_display.md R242, R244). -/

namespace Sys2Proof.Machine

/-! ## Toggling a list of pixels -/

/-- A pixel ends up toggled when the list names it an odd number of times. -/
theorem pixel_foldl_togglePixel (q : Position) : ∀ (ps : List Position) (fb : Screen),
    pixel (ps.foldl togglePixel fb) q = (pixel fb q ^^ decide (ps.count q % 2 = 1))
  | [], fb => by simp
  | p :: ps, fb => by
    rw [List.foldl_cons, pixel_foldl_togglePixel q ps, pixel_togglePixel, List.count_cons]
    by_cases hpq : q = p
    · obtain hmod | hmod := Nat.mod_two_eq_zero_or_one (ps.count q) <;>
        simp [hpq ▸ hmod, hpq, Nat.add_mod]
    · simp [hpq, Ne.symm hpq]

theorem pixel_foldl_togglePixel_of_nodup {ps : List Position} (hps : ps.Nodup) (fb : Screen) (q : Position) :
    pixel (ps.foldl togglePixel fb) q = (pixel fb q ^^ decide (q ∈ ps)) := by
  rw [pixel_foldl_togglePixel, hps.count]
  split <;> simp_all

theorem pixel_foldl_togglePixel_twice (ps : List Position) (fb : Screen) (q : Position) :
    pixel (ps.foldl togglePixel (ps.foldl togglePixel fb)) q = pixel fb q := by
  rw [pixel_foldl_togglePixel, pixel_foldl_togglePixel, Bool.xor_assoc, Bool.xor_self, Bool.xor_false]

/-! ## The pixels of a sprite -/

section
variable {clip : Bool} {x0 py px : Nat} {q : Position} {row : Byte}

theorem placePixel_eq_some : placePixel clip px py = some q ↔
    if clip then q.1.val = px ∧ q.2.val = py else q.1.val = px % 64 ∧ q.2.val = py % 32 := by
  obtain ⟨⟨qx, hx⟩, ⟨qy, hy⟩⟩ := q
  cases clip with
  | false => simp [placePixel, Fin.ofNat, eq_comm]
  | true =>
    rw [if_pos rfl]
    by_cases hout : px > 63 ∨ py > 31
    · have hnone : placePixel true px py = none := by simp [placePixel, hout]
      rw [hnone]
      exact iff_of_false nofun (by omega)
    · have hpx : px % 64 = px := Nat.mod_eq_of_lt (by omega)
      have hpy : py % 32 = py := Nat.mod_eq_of_lt (by omega)
      have hsome : placePixel true px py = some (Fin.ofNat 64 px, Fin.ofNat 32 py) := by
        simp [placePixel, hout]
      rw [hsome]
      simp [Fin.ofNat, hpx, hpy, eq_comm]

/-- Clipped or wrapped, a pixel lands in its column and row modulo the grid. -/
theorem placePixel_mod (h : placePixel clip px py = some q) :
    q.1.val = px % 64 ∧ q.2.val = py % 32 := by
  rw [placePixel_eq_some] at h
  split at h
  · omega
  · exact h

theorem mem_rowPixels : q ∈ rowPixels clip x0 py row ↔
    ∃ c, c < 8 ∧ row.getLsbD (7 - c) = true ∧ placePixel clip (x0 + c) py = some q := by
  simp only [rowPixels, List.mem_filterMap, List.mem_range, Option.ite_none_right_eq_some]

theorem mem_spritePixels : ∀ {rows : List Byte} {py : Nat}, q ∈ spritePixels clip x0 py rows ↔
    ∃ r, ∃ h : r < rows.length, q ∈ rowPixels clip x0 (py + r) rows[r]
  | [], py => by simp [spritePixels]
  | row :: rows, py => by
    rw [spritePixels, List.mem_append, mem_spritePixels]
    constructor
    · rintro (hq | ⟨r, hr, hq⟩)
      · exact ⟨0, Nat.succ_pos _, hq⟩
      · exact ⟨r + 1, Nat.succ_lt_succ hr, by rwa [← Nat.add_assoc, Nat.add_right_comm]⟩
    · rintro ⟨_ | r, hr, hq⟩
      · exact .inl hq
      · exact .inr ⟨r, Nat.lt_of_succ_lt_succ hr, by rwa [Nat.add_right_comm, Nat.add_assoc]⟩

/-- The eight columns of a row are distinct modulo 64. -/
theorem nodup_rowPixels : (rowPixels clip x0 py row).Nodup := by
  refine List.pairwise_filterMap.2 (List.nodup_range.imp_of_mem fun {a b} ha hb hne q hq q' hq' => ?_)
  rintro rfl
  rw [List.mem_range] at ha hb
  have hcol := (placePixel_mod (Option.ite_none_right_eq_some.1 hq).2).1
  have hcol' := (placePixel_mod (Option.ite_none_right_eq_some.1 hq').2).1
  omega

theorem row_of_mem_rowPixels (h : q ∈ rowPixels clip x0 py row) : q.2.val = py % 32 := by
  obtain ⟨c, -, -, hq⟩ := mem_rowPixels.1 h
  exact (placePixel_mod hq).2

/-- The rows of a sprite are distinct modulo 32. -/
theorem nodup_spritePixels : ∀ {rows : List Byte} {py : Nat}, rows.length ≤ 32 →
    (spritePixels clip x0 py rows).Nodup
  | [], _, _ => List.nodup_nil
  | row :: rows, py, hlen => by
    rw [List.length_cons] at hlen
    refine nodup_rowPixels.append (nodup_spritePixels (by omega)) fun q hq hq' => ?_
    obtain ⟨r, hr, hq'⟩ := mem_spritePixels.1 hq'
    have hrow := row_of_mem_rowPixels hq
    have hrow' := row_of_mem_rowPixels hq'
    omega

end
end Sys2Proof.Machine
end

section
/-! SUPPORT. DRW by what it can do: raise at its bounds check, wait for the tick, or toggle the pixels of its
sprite (spec/45_display.md R242 to R245). -/

namespace Sys2Proof.Machine

/-- The pixels DRW Vx,Vy,n toggles in `s`, its rows read from I on. -/
def State.spriteAt (s : State) (x y : Reg) (n : BitVec 4) : List Position :=
  s.drawPixels x y ((List.range n.toNat).map fun k => s.byteAt (s.i.toNat + k))

section
variable {s t : State} {x y : Reg} {n : BitVec 4}

theorem nodup_spriteAt : (s.spriteAt x y n).Nodup := by
  have := n.isLt
  exact nodup_spritePixels (by rw [List.length_map, List.length_range]; omega)

theorem mem_spriteAt {px : Fin 64} {py : Fin 32} : (px, py) ∈ s.spriteAt x y n ↔
    ∃ r c : Nat, r < n.toNat ∧ c < 8 ∧ (s.byteAt (s.i.toNat + r)).getLsbD (7 - c) = true ∧
      if s.cfg.quirks.clipping then
        px.val = (s.reg x).toNat % 64 + c ∧ py.val = (s.reg y).toNat % 32 + r
      else
        px.val = ((s.reg x).toNat % 64 + c) % 64 ∧ py.val = ((s.reg y).toNat % 32 + r) % 32 := by
  simp only [State.spriteAt, State.drawPixels, mem_spritePixels, mem_rowPixels, placePixel_eq_some,
    List.length_map, List.length_range, List.getElem_map, List.getElem_range, State.spriteColumn, State.spriteRow]
  constructor
  · rintro ⟨r, hr, c, hrest⟩
    exact ⟨r, c, hr, hrest⟩
  · rintro ⟨r, c, hr, hrest⟩
    exact ⟨r, hr, c, hrest⟩

theorem spriteAt_congr (hcfg : t.cfg = s.cfg) (hmem : t.mem = s.mem) (hi : t.i = s.i)
    (hx : t.reg x = s.reg x) (hy : t.reg y = s.reg y) : t.spriteAt x y n = s.spriteAt x y n := by
  simp only [State.spriteAt, State.drawPixels, State.spriteColumn, State.spriteRow, State.byteAt, hcfg, hmem, hi,
    hx, hy]

theorem exec_drw_of_waiting (hin : n.toNat = 0 ∨ s.i.toNat + n.toNat ≤ 0x1000) (hw : s.drawMustWait = true) :
    exec (.drw x y n) s = .next (s.hold .awaitBlank) := by
  obtain ⟨hout, -⟩ | ⟨-, ⟨-, hr⟩ | ⟨hgo, -⟩⟩ := execDrw_cases s x y n
  · omega
  · exact hr
  · simp [hw] at hgo

theorem exec_drw_of_ready (hin : n.toNat = 0 ∨ s.i.toNat + n.toNat ≤ 0x1000) (hgo : s.drawMustWait = false) :
    exec (.drw x y n) s = .next (s.drawn (s.spriteAt x y n)).complete := by
  obtain ⟨hout, -⟩ | ⟨-, ⟨hw, -⟩ | ⟨-, hr⟩⟩ := execDrw_cases s x y n
  · omega
  · simp [hw] at hgo
  · exact hr

/-- A DRW that completes was in range and had not to wait. -/
theorem exec_drw_completed (h : exec (.drw x y n) s = .next t) (hok : t.status = .ok) :
    (n.toNat = 0 ∨ s.i.toNat + n.toNat ≤ 0x1000) ∧ t = (s.drawn (s.spriteAt x y n)).complete := by
  obtain ⟨-, hr⟩ | ⟨hin, ⟨-, hr⟩ | ⟨-, hr⟩⟩ := execDrw_cases s x y n <;> cases hr.symm.trans h
  · cases hok
  · cases hok
  · exact ⟨hin, rfl⟩

theorem pixelAt_drawn {ps : List Position} (hps : ps.Nodup) (px : Fin 64) (py : Fin 32) :
    (s.drawn ps).complete.pixelAt px py = (s.pixelAt px py ^^ decide ((px, py) ∈ ps)) :=
  pixel_foldl_togglePixel_of_nodup hps s.fb (px, py)

theorem reg_vf_drawn (ps : List Position) : (s.drawn ps).complete.reg vf = collisionFlag s.fb ps :=
  State.reg_setReg_same _ vf _

end

/-- VF is 1 when a pixel the draw toggles was lit. -/
theorem collisionFlag_eq_one {fb : Screen} {ps : List Position} {p : Position} (hp : p ∈ ps)
    (hlit : pixel fb p = true) : collisionFlag fb ps = 1 := by
  rw [collisionFlag, List.any_eq_true.2 ⟨p, hp, hlit⟩]
  rfl

theorem collisionFlag_eq_zero {fb : Screen} {ps : List Position} (h : ∀ p ∈ ps, pixel fb p = false) :
    collisionFlag fb ps = 0 := by
  rw [collisionFlag, List.any_eq_false.2 fun p hp => by simp [h p hp]]
  rfl

/-- Settles O55: the pixels the sprite names are distinct, so each of them is toggled once. -/
theorem drawTogglesSpritePixels : Obligations.DrawTogglesSpritePixels := by
  refine fun x y n => ⟨decodeWord_encodeWord (.drw x y n), fun s hin hready => ?_⟩
  have hgo : s.drawMustWait = false := by
    obtain hq | hidle := hready
    · simp [State.drawMustWait, hq]
    · simp [State.drawMustWait, hidle]
  have hpixel := pixelAt_drawn (s := s) (nodup_spriteAt (s := s) (x := x) (y := y) (n := n))
  refine ⟨_, exec_drw_of_ready (hin.imp_left (congrArg BitVec.toNat)) hgo, fun px py => ?toggled, ?collision,
    ?none, keepsRegsBut_setReg _ (by simp) _, rfl, movedBy_complete_of_pc rfl, ?frame⟩
  case toggled =>
    rw [hpixel, ← mem_spriteAt]
    cases s.pixelAt px py <;> simp
  case collision =>
    rintro ⟨px, py, hlit, hout⟩
    rw [hpixel, hlit, Bool.true_xor, Bool.not_eq_false', decide_eq_true_eq] at hout
    rw [reg_vf_drawn, collisionFlag_eq_one hout hlit]
  case none =>
    intro hkept
    rw [reg_vf_drawn, collisionFlag_eq_zero fun p hp => Bool.eq_false_of_not_eq_true fun hlit => ?_]
    have hstays := hkept p.1 p.2 hlit
    rw [hpixel, show s.pixelAt p.1 p.2 = true from hlit] at hstays
    simp [hp] at hstays
  case frame =>
    have hsub : (.regs :: .screen :: if s.cfg.quirks.displayWait then [Part.draw] else []) ⊆
        [.regs, .screen, .draw] := by split <;> simp
    exact ((changesOnly_drawn s _).mono hsub).complete

/-- Settles O56: the bounds check comes first, then the wait. -/
theorem drawRaisesOrWaits : Obligations.DrawRaisesOrWaits := by
  refine fun x y n s => ⟨fun hn hout => ?raises, fun hin hq hdw => ?waits⟩
  case raises => exact ⟨_, exec_drw_of_past hn hout, raised_raise s _ _⟩
  case waits =>
    exact exec_drw_of_waiting (hin.imp_left (congrArg BitVec.toNat)) (State.drawMustWait_iff.2 ⟨hq, hdw⟩)

/-- Settles O57: the Tick ends the wait, the second draw toggles the pixels of the first, and a pixel toggled
twice is as before. -/
theorem drawingTwiceRestoresScreen : Obligations.DrawingTwiceRestoresScreen := by
  intro x y n s t h hok hx hy
  obtain ⟨hin, rfl⟩ := exec_drw_completed h hok
  have hsprite : (s.drawn (s.spriteAt x y n)).complete.tick.spriteAt x y n = s.spriteAt x y n :=
    spriteAt_congr rfl rfl rfl hx hy
  refine ⟨_, exec_drw_of_ready hin (by simp [State.drawMustWait]), rfl, fun px py => ?_⟩
  rw [hsprite]
  exact pixel_foldl_togglePixel_twice _ s.fb (px, py)

end Sys2Proof.Machine
end
